-- ==== Sys2Proof/Word.lean ====
section
/-! DEFINITION. The byte, the one unit every space of the block is made of (10_state.md R30). -/

namespace Sys2Proof

/-- A byte is 8 bits; bit 0 is the least significant (00_scope.md R7). -/
abbrev Byte := BitVec 8

end Sys2Proof
end

