-- ==== Sys2Proof/Syntax.lean ====
section
/-! DEFINITION. The types of the block's operands, results and operations (00_scope.md R10, 30_encoding.md R73). -/

namespace Sys2Proof

/-- Sixteen 11-bit channel values (43_rc_channels.md R140). -/
abbrev Channels := Vector (BitVec 11) 16

/-- The ten one-byte fields of link statistics (30_encoding.md R72). -/
abbrev LinkFields := Vector Byte 10

/-- A record of a registered message variant: every arm of `Packet` but the fallback (42_codec_dispatch.md R122).
`extra` is an arm that REGISTRY_EXTRA adds, under its tag; its fields are held as bytes (log 20). -/
inductive Record where
  | linkStatistics (f : LinkFields)
  | rcChannels (ch : Channels)
  | baroAltitude (altitudePacked : BitVec 16) (vspeedPacked : BitVec 8)
  | extra (tag : Byte) (fields : List Byte)
deriving DecidableEq, Repr

/-- The decoded packet: the known variants and the `NotImplemented(tag, payload_len)` fallback (R122). -/
inductive Packet where
  | record (r : Record)
  | notImplemented (tag : Byte) (payloadLen : Nat)
deriving DecidableEq, Repr

/-- The typed errors of 60_exceptions.md R197. The last two belong to the adapters: no operation of the block
returns them (R196), and the spec does not say what `kind` ranges over (log 24). -/
inductive ErrorKind where
  | invalidSync (byte : Byte)
  | invalidPacketLength (byte : Byte)
  | invalidCrc (calculated received : Byte)
  | invalidPayloadLength
  | invalidPayload
  | bufferOverflow
  | unexpectedEof
  | io (kind : Nat)
deriving DecidableEq, Repr

/-- The command interface's own answers to a request outside its contract (60_exceptions.md R198). They are
results of an operation that completes, not stops of the machine. -/
inductive RefusedReason where
  | noFrame
  | illegalOp
deriving DecidableEq, Repr

/-- What an operation returns (00_scope.md R10, 30_encoding.md R73). -/
inductive Result where
  | done
  | incomplete
  | complete (len : Nat)
  | error (kind : ErrorKind)
  | refused (reason : RefusedReason)
  | crc (value : Byte)
  | packet (p : Packet)
  | written (n : Nat) (bytes : List Byte)
  | altitudeDm (value : BitVec 32)
  | altitudePacked (value : BitVec 16)
  | speed (value : BitVec 16)
  | vspeedPacked (value : BitVec 8)
deriving DecidableEq, Repr

/-- The operations: one constructor per row of spec/opcode_table.json, the sixteen command codes of R73 and the
four wire-tag rows of R76. A frame row's operand is a Raw Frame with that row's tag: its address and payload fix
the rest of its bytes (30_encoding.md R63; log 7). -/
inductive Instr where
  | reset
  | pushByte (byte : Byte)
  | crc8Digest (bytes : List Byte)
  | dispatch
  | rcDecode (payload : List Byte)
  | rcEncode (ch : Channels) (outCap : Nat)
  | baroDecode (payload : List Byte)
  | baroEncode (altitudePacked : BitVec 16) (vspeedPacked : BitVec 8) (outCap : Nat)
  | altUnpack (packed : BitVec 16)
  | altPack (altitudeDm : BitVec 32)
  | vsUnpack (packed : BitVec 8)
  | vsPack (v : BitVec 16)
  | linkstatDecode (payload : List Byte)
  | linkstatEncode (f : LinkFields) (outCap : Nat)
  | encodeFrame (destination : Byte) (record : Record) (outCap : Nat)
  | reserved0xF
  | frameLinkstat (address : Byte) (payload : List Byte)
  | frameRcChannels (address : Byte) (payload : List Byte)
  | frameBaroAlt (address : Byte) (payload : List Byte)
  | frameNotImplemented (address tag : Byte) (payload : List Byte)
deriving DecidableEq, Repr

/-- What the host hands to the block: the bytes of a command (op and operands, R73, R74; log 6), or the bytes of
a frame, the operand of the pure function `dispatch` (R78, 20_memory.md R45; log 7). -/
inductive Request where
  | command (bytes : List Byte)
  | frame (bytes : List Byte)
deriving DecidableEq, Repr

/-- Why the bytes of a request stand for no operation: each is a value that the operand types of R74 and the Raw
Frame of R63 do not have, so no host can present it. -/
inductive Reject where
  /-- no op code at all -/
  | emptyCommand
  /-- the op byte has a bit above the four of R73 -/
  | opTooWide
  /-- the operands end early -/
  | truncated
  /-- bytes are left after the operands -/
  | trailingBytes
  /-- a length or capacity is not written in its shortest form -/
  | numberNotCanonical
  /-- a channel operand above 2047 (R74, U14) -/
  | channelTooWide
  /-- no record variant has this selector -/
  | unknownVariant
  /-- a destination outside ADDR_SET (R74, U15) -/
  | destinationNotAddress
  /-- a record whose variant is not registered (R171) -/
  | recordNotRegistered
  /-- fewer frame bytes than MIN_TOTAL, or MAX_TOTAL_EXCL or more (R63) -/
  | frameSize
  /-- the frame's first byte is outside ADDR_SET (R63) -/
  | frameAddress
  /-- the frame's length byte disagrees with its size (R63) -/
  | frameLengthByte
  /-- the frame's last byte is not its CRC (R63) -/
  | frameCrc
deriving DecidableEq, Repr

end Sys2Proof
end

