-- ==== Sys2Proof/Config.lean ====
section
/-! DEFINITION. The block's build parameters as a type (00_scope.md R6), the constants the source prints, and the
free values. The default build stands in Machine/Defaults.lean. -/

namespace Sys2Proof

/-- The final rounding of VS_UNPACK, an OPEN parameter (44_baro_altitude.md R160, 90_conflicts.md C4). -/
inductive Rounding where
  | trunc
  | nearest
deriving DecidableEq, Repr

/-- A codec that REGISTRY_EXTRA adds (42_codec_dispatch.md R120, R123). `decode` is the content check after the
length rule: `none` is `InvalidPayload` (R131). `encode` gives the payload, whose length is the space required. -/
structure ExtraCodec where
  tag : Byte
  minPayload : Nat
  fixedSize : Bool
  decode : List Byte → Option (List Byte)
  encode : List Byte → List Byte

/-- What K_L and K_R give: the threshold table of VS_PACK (44_baro_altitude.md R159) and the two magnitude tables of
VS_UNPACK (R161). The constants enter the block through these tables only. -/
structure VsTables where
  packThresholds : List Nat
  unpackTruncated : List Nat
  unpackNearest : List Nat
deriving DecidableEq, Repr

/-- The parameters of 00_scope.md R6. They are fixed when the block is built and are arguments of the step function,
not state (10_state.md R28; log 1). BUF_CAP, RC_CHANNELS, RC_BITS, RC_PAYLOAD and LINKSTAT_PAYLOAD are widths of the
register and operand types and stand in those types (log 31). -/
structure Params where
  /-- MIN_TOTAL, the smallest frame (R62) -/
  minTotal : Nat
  /-- MAX_TOTAL_EXCL, one more than the largest frame (R62) -/
  maxTotalExcl : Nat
  /-- ENC_SCRATCH (45_frame_encoder.md R171, R172) -/
  encScratch : Nat
  /-- ADDR_SET, must contain 0xC8 (R64) -/
  addrSet : List Byte
  /-- CRC_POLY (41_crc8.md R111) -/
  crcPoly : Byte
  /-- CRC_INIT (41_crc8.md R110, R112) -/
  crcInit : Byte
  /-- TAG_LINKSTAT -/
  tagLinkstat : Byte
  /-- TAG_RC -/
  tagRc : Byte
  /-- TAG_BARO -/
  tagBaro : Byte
  /-- REGISTRY_EXTRA (R123) -/
  registryExtra : List ExtraCodec
  /-- EXT_THRESHOLD (R68): no operation reads it -/
  extThreshold : Nat
  /-- BARO_PAYLOAD (44_baro_altitude.md R150, R151) -/
  baroPayload : Nat
  /-- ALT_OFFSET_DM (R154, R155) -/
  altOffsetDm : Nat
  /-- ALT_MAX_M (R155) -/
  altMaxM : Nat
  /-- K_L and K_R, through their tables -/
  vsTables : VsTables
  /-- VS_UNPACK_ROUND (R160) -/
  vsUnpackRound : Rounding
  /-- FIXED_LEN_EXACT (R121) -/
  fixedLenExact : Bool

/-- MAX_PAYLOAD_RX, derived: the largest frame without its four other bytes (R62). -/
def Params.maxPayloadRx (p : Params) : Nat := p.maxTotalExcl - 1 - 4

/-- The tags the registry has entries for, in the order of R123. -/
def Params.tags (p : Params) : List Byte :=
  [p.tagLinkstat, p.tagRc, p.tagBaro] ++ p.registryExtra.map ExtraCodec.tag

namespace Config

/-- BUF_CAP: the indices of `buf` that a 6-bit cursor has (10_state.md R22; 00_scope.md R6). -/
def bufCap : Nat := 2 ^ 6

end Config

/-- The sizes fit each other: a frame has room for its four one-byte fields (30_encoding.md R61), the largest frame
fits `buf` (10_state.md R22), and what the encoder can send can be received (45_frame_encoder.md R172). -/
abbrev Params.SizesOk (p : Params) : Prop :=
  4 ≤ p.minTotal ∧ p.maxTotalExcl ≤ Config.bufCap ∧ p.encScratch + 4 < p.maxTotalExcl

/-- A legal build: the sizes fit, 0xC8 is an address (R64), the registry's tags are pairwise distinct (R123), and
the altitude payload has room for its three field bytes (R151). -/
abbrev Params.Ok (p : Params) : Prop :=
  p.SizesOk ∧ 0xC8#8 ∈ p.addrSet ∧ p.tags.Nodup ∧ 3 ≤ p.baroPayload

namespace Config

/-- Free value: what `buf[i]` holds while nothing has been written to it since power-on or RESET. The spec leaves
it unspecified (10_state.md R32, U1); the first argument numbers the resets, the second is the index (log 11). -/
opaque freeByte : Nat → Nat → Byte

/-- Free value: what `target` holds after a RESET operation (10_state.md R32, 40_frame_fsm.md R90; log 12). -/
opaque freeTarget : Nat → BitVec 6

/-- Free value: what ENCODE writes at payload index `i`, 3 or above, of an altitude record in a build whose
BARO_PAYLOAD exceeds the three field bytes. The spec gives such a byte no value (44_baro_altitude.md R151; log 30). -/
opaque freeBaroByte : Nat → Byte

end Config
end Sys2Proof
end

