-- ==== Sys2Proof/Machine/VsTables.lean ====
section
/-! DEFINITION. The vertical-speed tables of K_L = 100 and K_R = 0.026 (44_baro_altitude.md R159, R161). -/

namespace Sys2Proof.Machine

/-- VS_PACK_T (R159): entry `q` is the smallest magnitude whose rounded logarithm is `q`. -/
def vsPackThresholds : List Nat :=
  [0, 2, 4, 7, 10, 13, 16, 19] ++
  [22, 25, 29, 32, 35, 39, 43, 46] ++
  [50, 54, 58, 62, 67, 71, 75, 80] ++
  [85, 90, 95, 100, 105, 110, 116, 122] ++
  [127, 133, 139, 146, 152, 159, 166, 173] ++
  [180, 187, 195, 202, 210, 219, 227, 236] ++
  [244, 253, 263, 272, 282, 292, 302, 313] ++
  [324, 335, 346, 358, 370, 383, 395, 408] ++
  [422, 435, 450, 464, 479, 494, 510, 526] ++
  [542, 559, 576, 594, 613, 631, 651, 670] ++
  [691, 711, 733, 755, 777, 800, 824, 848] ++
  [873, 899, 925, 952, 980, 1008, 1038, 1067] ++
  [1098, 1130, 1162, 1195, 1229, 1264, 1300, 1337] ++
  [1375, 1414, 1454, 1495, 1537, 1580, 1624, 1670] ++
  [1716, 1764, 1813, 1863, 1915, 1968, 2023, 2079] ++
  [2136, 2195, 2255, 2317, 2381, 2446, 2513, 2582] ++
  [2653]

/-- VS_UNPACK_T (R161), the truncated magnitudes. -/
def vsUnpackTruncated : List Nat :=
  [0, 2, 5, 8, 10, 13, 16, 19] ++
  [23, 26, 29, 33, 36, 40, 43, 47] ++
  [51, 55, 59, 63, 68, 72, 77, 81] ++
  [86, 91, 96, 101, 107, 112, 118, 123] ++
  [129, 135, 142, 148, 154, 161, 168, 175] ++
  [182, 190, 198, 205, 213, 222, 230, 239] ++
  [248, 257, 266, 276, 286, 296, 307, 317] ++
  [328, 340, 351, 363, 375, 388, 401, 414] ++
  [428, 441, 456, 470, 485, 501, 517, 533] ++
  [550, 567, 584, 602, 621, 640, 659, 679] ++
  [700, 721, 743, 765, 788, 811, 835, 860] ++
  [885, 911, 938, 965, 993, 1022, 1051, 1082] ++
  [1113, 1145, 1178, 1211, 1246, 1281, 1318, 1355] ++
  [1393, 1433, 1473, 1515, 1557, 1601, 1646, 1692] ++
  [1739, 1787, 1837, 1888, 1940, 1994, 2049, 2106] ++
  [2164, 2224, 2285, 2348, 2412, 2479, 2546, 2616] ++
  [2688]

/-- VS_UNPACK_N (R161), the nearest magnitudes. -/
def vsUnpackNearest : List Nat :=
  [0, 3, 5, 8, 11, 14, 17, 20] ++
  [23, 26, 30, 33, 37, 40, 44, 48] ++
  [52, 56, 60, 64, 68, 73, 77, 82] ++
  [87, 92, 97, 102, 107, 113, 118, 124] ++
  [130, 136, 142, 148, 155, 162, 169, 176] ++
  [183, 190, 198, 206, 214, 222, 231, 239] ++
  [248, 258, 267, 277, 287, 297, 307, 318] ++
  [329, 340, 352, 364, 376, 388, 401, 414] ++
  [428, 442, 456, 471, 486, 501, 517, 533] ++
  [550, 567, 585, 603, 621, 640, 660, 680] ++
  [700, 722, 743, 765, 788, 812, 836, 860] ++
  [886, 911, 938, 965, 994, 1022, 1052, 1082] ++
  [1113, 1145, 1178, 1212, 1246, 1282, 1318, 1356] ++
  [1394, 1433, 1474, 1515, 1558, 1601, 1646, 1692] ++
  [1739, 1788, 1838, 1889, 1941, 1995, 2050, 2107] ++
  [2165, 2224, 2286, 2348, 2413, 2479, 2547, 2617] ++
  [2688]

/-- The tables of the spec's K_L and K_R. -/
def sourceVsTables : VsTables := ⟨vsPackThresholds, vsUnpackTruncated, vsUnpackNearest⟩

end Sys2Proof.Machine
end

