-- ==== Sys2Proof/Machine/Defaults.lean ====
section
/-! DEFINITION. The default build: the values 00_scope.md R6 lists. -/

namespace Sys2Proof.Machine

/-- ADDR_SET's default (30_encoding.md R64). 0xC8 is the source's; the other thirteen are PRESUMED: the spec takes
them from general knowledge of the protocol (log 2, unsafe). -/
def defaultAddrSet : List Byte :=
  [0x00, 0x10, 0x12, 0x80, 0x8A, 0xC0, 0xC2, 0xC4, 0xC8, 0xCA, 0xCC, 0xEA, 0xEC, 0xEE]

/-- CRC_POLY's default. PRESUMED: general knowledge of CRC-8/DVB-S2 (R110, R117; log 3, unsafe). -/
def defaultPoly : Byte := 0xD5

/-- The parameters of the build that `exec` and `step` are about. TAG_RC, TAG_BARO, EXT_THRESHOLD and BARO_PAYLOAD
are PRESUMED (R67, R68, R151; log 4, 21); VS_UNPACK_ROUND, FIXED_LEN_EXACT and REGISTRY_EXTRA have the spec's defaults (log 18 to 20). -/
def params : Params where
  minTotal := 4
  maxTotalExcl := 64
  encScratch := 58
  addrSet := defaultAddrSet
  crcPoly := defaultPoly
  crcInit := 0x00
  tagLinkstat := 0x14
  tagRc := 0x16
  tagBaro := 0x09
  registryExtra := []
  extThreshold := 0x28
  baroPayload := 3
  altOffsetDm := 10000
  altMaxM := 0x7FFE
  vsTables := sourceVsTables
  vsUnpackRound := .trunc
  fixedLenExact := false

end Sys2Proof.Machine
end

