-- ==== Sys2Proof/Machine/Frame.lean ====
section
/-! DEFINITION. The wire frame format (30_encoding.md R61 to R69): Raw Frames and their parts. -/

namespace Sys2Proof.Machine

/-- `frame_address`, `frame_tag`, `frame_payload`, `frame_payload_len` of R63. They are meant for Raw Frames; what
they answer for shorter byte lists is no rule of the spec (log 27). -/
def frameAddress (f : List Byte) : Byte := f.getD 0 0
def frameLengthByte (f : List Byte) : Byte := f.getD 1 0
def frameTag (f : List Byte) : Byte := f.getD 2 0
def framePayload (f : List Byte) : List Byte := (f.drop 3).dropLast
def framePayloadLen (f : List Byte) : Nat := f.length - 4
def frameCrc (f : List Byte) : Byte := f.getD (f.length - 1) 0

/-- The bytes the CRC covers: `f[2..len(f) − 1)`, type and payload (R63, R66). -/
def frameBody (f : List Byte) : List Byte := (f.drop 2).dropLast

/-- `is_raw_frame` (R63). -/
abbrev isRawFrame (p : Params) (f : List Byte) : Prop :=
  p.minTotal ≤ f.length ∧ f.length < p.maxTotalExcl ∧ frameAddress f ∈ p.addrSet ∧
    (frameLengthByte f).toNat + 2 = f.length ∧ frameCrc f = frameDigest p (frameBody f)

/-- The frame `[address][length][type][payload][crc]` with its length and CRC bytes as R61 gives them. -/
def rawFrame (p : Params) (address tag : Byte) (payload : List Byte) : List Byte :=
  [address, BitVec.ofNat 8 (payload.length + 2), tag] ++ payload ++ [frameDigest p (tag :: payload)]

/-- `is_extended` (R68). No rule branches on it. -/
def isExtended (p : Params) (tag : Byte) : Bool := p.extThreshold ≤ tag.toNat

/-- The two-byte sub-header of an extended frame, (destination, source) = (payload[0], payload[1]) (R68).
DESIGN CHOICE: a payload of fewer than two bytes has none, which R68 does not say (log 33, safe). -/
def extendedSubHeader (payload : List Byte) : Option (Byte × Byte) :=
  match payload with
  | dst :: src :: _ => some (dst, src)
  | _ => none

end Sys2Proof.Machine
end

