-- ==== Sys2Proof/Machine/Operands.lean ====
section
/-! DEFINITION. Operand assembly: signed and big-endian readings, and the number and field layouts of a command's
bytes (00_scope.md R8, 20_memory.md R40, 30_encoding.md R65, R74). -/

namespace Sys2Proof.Machine

/-- `sext_8` (00_scope.md R8). -/
def sext8 (b : Byte) : Int := if b.toNat < 128 then b.toNat else (b.toNat : Int) - 256

/-- `to_u8` (00_scope.md R8), of a value from −128 to 127. -/
def toU8 (i : Int) : Byte := BitVec.ofInt 8 (if 0 ≤ i then i else i + 256)

/-- The unsigned value of bytes, most significant first (20_memory.md R40 (b)). -/
def beNat (bs : List Byte) : Nat := bs.foldl (fun acc b => acc * 256 + b.toNat) 0

/-- `n` bytes of `v`, most significant first. -/
def beBytes : Nat → Nat → List Byte
  | 0, _ => []
  | n + 1, v => BitVec.ofNat 8 (v / 256 ^ n) :: beBytes n v

/-- A number with no upper bound as a command carries it: seven bits a byte, least significant group first, bit 7
set on every byte but the last, in the shortest form (log 6). The first argument bounds the bytes. -/
def natBytesUpTo : Nat → Nat → List Byte
  | 0, n => [BitVec.ofNat 8 n]
  | k + 1, n =>
    if n < 128 then [BitVec.ofNat 8 n] else BitVec.ofNat 8 (n % 128 + 128) :: natBytesUpTo k (n / 128)

/-- The length `n` of a CB operand, or an `out_cap` (30_encoding.md R74), as a command carries it. -/
def natBytes (n : Nat) : List Byte := natBytesUpTo n n

/-- Read a number written by `natBytes`; one not in its shortest form is rejected. -/
def takeNat : List Byte → Except Reject (Nat × List Byte)
  | [] => .error .truncated
  | b :: bs =>
    if b.toNat < 128 then .ok (b.toNat, bs)
    else
      match takeNat bs with
      | .error e => .error e
      | .ok (n, rest) => if n = 0 then .error .numberNotCanonical else .ok (b.toNat - 128 + 128 * n, rest)

/-- The next `n` bytes of a command and the rest. -/
def takeBytes (n : Nat) (bs : List Byte) : Except Reject (List Byte × List Byte) :=
  if n ≤ bs.length then .ok (bs.take n, bs.drop n) else .error .truncated

/-- A length and that many bytes: the CB operand (30_encoding.md R74). -/
def takeCounted (bs : List Byte) : Except Reject (List Byte × List Byte) :=
  match takeNat bs with
  | .error e => .error e
  | .ok (n, rest) => takeBytes n rest

/-- `CB` operand bytes as a command carries them. -/
def countedBytes (bs : List Byte) : List Byte := natBytes bs.length ++ bs

/-- Ten bytes as the fields of link statistics, in order (30_encoding.md R72). -/
def linkFieldsOf (bs : List Byte) : LinkFields :=
  #v[bs.getD 0 0, bs.getD 1 0, bs.getD 2 0, bs.getD 3 0, bs.getD 4 0,
     bs.getD 5 0, bs.getD 6 0, bs.getD 7 0, bs.getD 8 0, bs.getD 9 0]

/-- A channel lane as a command carries it: two bytes, most significant first (log 6). -/
def laneBytes (ch : Channels) : List Byte := ch.toList.flatMap fun c => beBytes 2 c.toNat

/-- Lane `i` of the 32 lane bytes. -/
def laneOf (bs : List Byte) (i : Nat) : Nat := beNat [bs.getD (2 * i) 0, bs.getD (2 * i + 1) 0]

/-- The sixteen channels of 32 lane bytes, each below 2048. -/
def lanesOf (bs : List Byte) : Channels :=
  #v[.ofNat 11 (laneOf bs 0), .ofNat 11 (laneOf bs 1), .ofNat 11 (laneOf bs 2), .ofNat 11 (laneOf bs 3),
     .ofNat 11 (laneOf bs 4), .ofNat 11 (laneOf bs 5), .ofNat 11 (laneOf bs 6), .ofNat 11 (laneOf bs 7),
     .ofNat 11 (laneOf bs 8), .ofNat 11 (laneOf bs 9), .ofNat 11 (laneOf bs 10), .ofNat 11 (laneOf bs 11),
     .ofNat 11 (laneOf bs 12), .ofNat 11 (laneOf bs 13), .ofNat 11 (laneOf bs 14), .ofNat 11 (laneOf bs 15)]

/-- Sixteen channel operands; one above 2047 cannot be presented (30_encoding.md R74, U14). -/
def takeLanes (bs : List Byte) : Except Reject (Channels × List Byte) :=
  match takeBytes 32 bs with
  | .error e => .error e
  | .ok (ls, rest) =>
    if (List.range 16).all fun i => laneOf ls i < 2048 then .ok (lanesOf ls, rest) else .error .channelTooWide

end Sys2Proof.Machine
end

