-- ==== Sys2Proof/WellFormed.lean ====
section
/-! DEFINITION. Which operations a host can present (30_encoding.md R74, R63). -/

namespace Sys2Proof

/-- A record of a registered variant: the three codecs are always registered, an `extra` record needs an entry of
REGISTRY_EXTRA under its tag (45_frame_encoder.md R171). -/
def Record.registered (p : Params) : Record → Bool
  | .linkStatistics _ | .rcChannels _ | .baroAltitude _ _ => true
  | .extra tag _ => p.registryExtra.any fun c => c.tag == tag

/-- The conditions the operand types put on a Raw Frame: its address is an Address and its size is a frame's (R62, R63). -/
def frameOperandsOk (p : Params) (address : Byte) (payload : List Byte) : Bool :=
  p.addrSet.contains address && p.minTotal ≤ payload.length + 4 && payload.length ≤ p.maxPayloadRx

/-- The operands of ENCODE_FRAME are an address and a registered record (R74); a frame row's operand is a Raw
Frame with that row's tag, and the fallback row's tag is none of the three (R76). Every other operand type holds
legal values only. -/
def Instr.wellFormed (p : Params) : Instr → Bool
  | .reset | .pushByte _ | .crc8Digest _ | .dispatch | .rcDecode _ | .rcEncode _ _ | .baroDecode _
  | .baroEncode _ _ _ | .altUnpack _ | .altPack _ | .vsUnpack _ | .vsPack _ | .linkstatDecode _
  | .linkstatEncode _ _ | .reserved0xF => true
  | .encodeFrame destination record _ => p.addrSet.contains destination && record.registered p
  | .frameLinkstat address payload | .frameRcChannels address payload | .frameBaroAlt address payload =>
    frameOperandsOk p address payload
  | .frameNotImplemented address tag payload =>
    frameOperandsOk p address payload && !([p.tagLinkstat, p.tagRc, p.tagBaro].contains tag)

end Sys2Proof
end

