-- ==== Sys2Proof/Decode.lean ====
section
/-! DEFINITION. The decoder, total on any request, rejecting by name, and the encoder (30_encoding.md R60, R73,
R74, R63). The op codes and operand formats are the spec's; how a command's operands lie in bytes is the model's
choice (log 6). -/

namespace Sys2Proof

open Machine

/-- An operation read to the end of its request. -/
def finishCommand (i : Instr) (rest : List Byte) : Except Reject Instr :=
  match rest with
  | [] => .ok i
  | _ :: _ => .error .trailingBytes

/-- Format C1: one scalar of `n` bytes (R74). -/
def scalarCommand (n : Nat) (mk : Nat → Instr) (bs : List Byte) : Except Reject Instr :=
  match takeBytes n bs with
  | .error e => .error e
  | .ok (v, rest) => finishCommand (mk (beNat v)) rest

/-- Format CB: a length and that many bytes (R74). -/
def bytesCommand (mk : List Byte → Instr) (bs : List Byte) : Except Reject Instr :=
  match takeCounted bs with
  | .error e => .error e
  | .ok (v, rest) => finishCommand (mk v) rest

/-- The `out_cap` that ends formats CR and CF (R74). -/
def capCommand (mk : Nat → Instr) (bs : List Byte) : Except Reject Instr :=
  match takeNat bs with
  | .error e => .error e
  | .ok (cap, rest) => finishCommand (mk cap) rest

/-- Sixteen 11-bit channel operands, then `mk`. -/
def withLanes (bs : List Byte) (mk : Channels → List Byte → Except Reject Instr) : Except Reject Instr :=
  match takeLanes bs with
  | .error e => .error e
  | .ok (ch, rest) => mk ch rest

/-- Ten link-statistics bytes, then `mk`. -/
def withLinkFields (bs : List Byte) (mk : LinkFields → List Byte → Except Reject Instr) : Except Reject Instr :=
  match takeBytes 10 bs with
  | .error e => .error e
  | .ok (f, rest) => mk (linkFieldsOf f) rest

/-- The 16-bit altitude field and the 8-bit vertical-speed field, then `mk`. -/
def withBaroFields (bs : List Byte) (mk : BitVec 16 → BitVec 8 → List Byte → Except Reject Instr) :
    Except Reject Instr :=
  match takeBytes 3 bs with
  | .error e => .error e
  | .ok (f, rest) => mk (BitVec.ofNat 16 (beNat (f.take 2))) (f.getD 2 0) rest

/-- Format CF after the destination: a variant selector, the record's fields, and `out_cap`. -/
def recordCommand (mk : Record → Nat → Instr) (bs : List Byte) : Except Reject Instr :=
  match bs with
  | [] => .error .truncated
  | sel :: rest =>
    match sel.toNat with
    | 0 => withLinkFields rest fun f rest => capCommand (mk (.linkStatistics f)) rest
    | 1 => withLanes rest fun ch rest => capCommand (mk (.rcChannels ch)) rest
    | 2 => withBaroFields rest fun alt vs rest => capCommand (mk (.baroAltitude alt vs)) rest
    | 3 =>
      match rest with
      | [] => .error .truncated
      | tag :: rest =>
        match takeCounted rest with
        | .error e => .error e
        | .ok (fields, rest) => capCommand (mk (.extra tag fields)) rest
    | _ => .error .unknownVariant

/-- ENCODE_FRAME's operands must satisfy its precondition (R74, U15). -/
def checkPresentable (p : Params) (r : Except Reject Instr) : Except Reject Instr :=
  match r with
  | .ok (.encodeFrame destination record cap) =>
    if !p.addrSet.contains destination then .error .destinationNotAddress
    else if !record.registered p then .error .recordNotRegistered
    else .ok (.encodeFrame destination record cap)
  | other => other

/-- Format CF: a destination and a record command (R74). -/
def frameCommand (p : Params) (bs : List Byte) : Except Reject Instr :=
  match bs with
  | [] => .error .truncated
  | destination :: rest => checkPresentable p (recordCommand (.encodeFrame destination) rest)

/-- The operands of each op code, in the order of R73's table. -/
def decodeOperands (p : Params) (op : Nat) (bs : List Byte) : Except Reject Instr :=
  match op with
  | 0x0 => finishCommand .reset bs
  | 0x1 => scalarCommand 1 (fun v => .pushByte (.ofNat 8 v)) bs
  | 0x2 => bytesCommand .crc8Digest bs
  | 0x3 => finishCommand .dispatch bs
  | 0x4 => bytesCommand .rcDecode bs
  | 0x5 => withLanes bs fun ch rest => capCommand (.rcEncode ch) rest
  | 0x6 => bytesCommand .baroDecode bs
  | 0x7 => withBaroFields bs fun alt vs rest => capCommand (.baroEncode alt vs) rest
  | 0x8 => scalarCommand 2 (fun v => .altUnpack (.ofNat 16 v)) bs
  | 0x9 => scalarCommand 4 (fun v => .altPack (.ofNat 32 v)) bs
  | 0xA => scalarCommand 1 (fun v => .vsUnpack (.ofNat 8 v)) bs
  | 0xB => scalarCommand 2 (fun v => .vsPack (.ofNat 16 v)) bs
  | 0xC => bytesCommand .linkstatDecode bs
  | 0xD => withLinkFields bs fun f rest => capCommand (.linkstatEncode f) rest
  | 0xE => frameCommand p bs
  | 0xF => finishCommand .reserved0xF bs
  | _ => .error .opTooWide

/-- A command: the op code in bits 3 to 0 of its first byte, the other bits zero (log 6). -/
def decodeCommand (p : Params) (bs : List Byte) : Except Reject Instr :=
  match bs with
  | [] => .error .emptyCommand
  | op :: rest => decodeOperands p op.toNat rest

/-- A frame operand: the conditions of R63 in order, then the row its tag selects (R76). -/
def decodeFrame (p : Params) (f : List Byte) : Except Reject Instr :=
  if ¬(p.minTotal ≤ f.length ∧ f.length < p.maxTotalExcl) then .error .frameSize
  else if frameAddress f ∉ p.addrSet then .error .frameAddress
  else if (frameLengthByte f).toNat + 2 ≠ f.length then .error .frameLengthByte
  else if frameCrc f ≠ frameDigest p (frameBody f) then .error .frameCrc
  else if frameTag f = p.tagLinkstat then .ok (.frameLinkstat (frameAddress f) (framePayload f))
  else if frameTag f = p.tagRc then .ok (.frameRcChannels (frameAddress f) (framePayload f))
  else if frameTag f = p.tagBaro then .ok (.frameBaroAlt (frameAddress f) (framePayload f))
  else .ok (.frameNotImplemented (frameAddress f) (frameTag f) (framePayload f))

/-- The decoder of a build. -/
def decodeWith (p : Params) : Request → Except Reject Instr
  | .command bs => decodeCommand p bs
  | .frame f => decodeFrame p f

/-- The decoder of the default build. -/
def decode (r : Request) : Except Reject Instr := decodeWith params r

/-- The bytes of a record operand: its variant selector and its fields in order. -/
def recordBytes : Record → List Byte
  | .linkStatistics f => 0 :: f.toList
  | .rcChannels ch => 1 :: laneBytes ch
  | .baroAltitude alt vs => 2 :: (beBytes 2 alt.toNat ++ [vs])
  | .extra tag fields => 3 :: tag :: countedBytes fields

/-- The encoder of a build: op codes of R73, wire bytes of R61. -/
def encodeWith (p : Params) : Instr → Request
  | .reset => .command [0x00]
  | .pushByte b => .command [0x01, b]
  | .crc8Digest bs => .command (0x02 :: countedBytes bs)
  | .dispatch => .command [0x03]
  | .rcDecode bs => .command (0x04 :: countedBytes bs)
  | .rcEncode ch cap => .command (0x05 :: (laneBytes ch ++ natBytes cap))
  | .baroDecode bs => .command (0x06 :: countedBytes bs)
  | .baroEncode alt vs cap => .command (0x07 :: (beBytes 2 alt.toNat ++ [vs] ++ natBytes cap))
  | .altUnpack v => .command (0x08 :: beBytes 2 v.toNat)
  | .altPack v => .command (0x09 :: beBytes 4 v.toNat)
  | .vsUnpack v => .command [0x0A, v]
  | .vsPack v => .command (0x0B :: beBytes 2 v.toNat)
  | .linkstatDecode bs => .command (0x0C :: countedBytes bs)
  | .linkstatEncode f cap => .command (0x0D :: (f.toList ++ natBytes cap))
  | .encodeFrame destination r cap => .command (0x0E :: destination :: (recordBytes r ++ natBytes cap))
  | .reserved0xF => .command [0x0F]
  | .frameLinkstat address payload => .frame (rawFrame p address p.tagLinkstat payload)
  | .frameRcChannels address payload => .frame (rawFrame p address p.tagRc payload)
  | .frameBaroAlt address payload => .frame (rawFrame p address p.tagBaro payload)
  | .frameNotImplemented address tag payload => .frame (rawFrame p address tag payload)

/-- The encoder of the default build. -/
def encode (i : Instr) : Request := encodeWith params i

/-- The name spec/opcode_table.json gives the operation (30_encoding.md R77 writes traces with it). -/
def mnemonic : Instr → String
  | .reset => "RESET"
  | .pushByte _ => "PUSH_BYTE"
  | .crc8Digest _ => "CRC8_DIGEST"
  | .dispatch => "DISPATCH"
  | .rcDecode _ => "RC_DECODE"
  | .rcEncode _ _ => "RC_ENCODE"
  | .baroDecode _ => "BARO_DECODE"
  | .baroEncode _ _ _ => "BARO_ENCODE"
  | .altUnpack _ => "ALT_UNPACK"
  | .altPack _ => "ALT_PACK"
  | .vsUnpack _ => "VS_UNPACK"
  | .vsPack _ => "VS_PACK"
  | .linkstatDecode _ => "LINKSTAT_DECODE"
  | .linkstatEncode _ _ => "LINKSTAT_ENCODE"
  | .encodeFrame _ _ _ => "ENCODE_FRAME"
  | .reserved0xF => "RESERVED_0xF"
  | .frameLinkstat _ _ => "FRAME.LINKSTAT"
  | .frameRcChannels _ _ => "FRAME.RC_CHANNELS"
  | .frameBaroAlt _ _ => "FRAME.BARO_ALT"
  | .frameNotImplemented _ _ _ => "FRAME.NOT_IMPLEMENTED"

/-- How many bytes the operands of an op code take when all of them are zero. -/
def zeroOperandBytes : Nat → Nat
  | 0x1 | 0x2 | 0x4 | 0x6 | 0xA | 0xC => 1
  | 0x5 => 33
  | 0x7 => 4
  | 0x8 | 0xB => 2
  | 0x9 => 4
  | 0xD => 11
  | 0xE => 13
  | _ => 0

/-- The bytes of a table word, the first word's first (the numbering of spec/opcode_table.json). -/
def wordBytes : Nat → Nat → List Byte
  | 0, _ => []
  | n + 1, w => BitVec.ofNat 8 w :: wordBytes n (w / 256)

/-- The request a word of the opcode table stands for. A word whose first byte is below 16 is a command code
followed by operand bytes of zeros; any other is a wire tag, byte 2 of a frame that is otherwise as zero as a Raw
Frame can be: broadcast address, empty payload. The table has two spaces whose words overlap; where they do, the
word is read as a command code (log 26). -/
def tableRequest (nbits w : Nat) : Request :=
  match wordBytes ((nbits + 7) / 8) w with
  | [] => .command []
  | first :: more =>
    if first.toNat < 16 then
      .command (first :: (more ++ List.replicate (zeroOperandBytes first.toNat - more.length) 0))
    else .frame (rawFrame params 0x00 first more)

/-- The instruction the decoder reads from a word of the opcode table. -/
def decodeTableWord (nbits w : Nat) : Option Instr :=
  match decode (tableRequest nbits w) with
  | .ok i => some i
  | .error _ => none

end Sys2Proof
end

