-- ==== Sys2Proof/Machine/State.lean ====
section
/-! DEFINITION. The state of one instance, the reasons a step can stop, and the state after reset. -/

namespace Sys2Proof.Machine

/-- Byte-addressed storage as a list of (index, byte) pairs with strictly rising indices. An index that is not
listed holds no byte the model knows, so no listed byte can equal it. -/
abbrev Memory := List Host.Cell

/-- The canonical form: strictly rising indices, so that equal memories are equal lists. -/
abbrev Memory.wf (m : Memory) : Prop := m.Pairwise fun a b => a.1 < b.1

/-- The parser state; the argument of `Reading` is the register `target` (10_state.md R21, R24). -/
inductive ParserState where
  | awaitingSync
  | awaitingLength
  | reading
  | awaitingCrc
deriving DecidableEq, Repr

/-- One instance. The first five fields are the spec's registers (10_state.md R21) under its names; `outBuffer` is
the host's output space (R30); the last three are the model's own (log 5, 9, 12). -/
structure State where
  /-- the parser state -/
  state : ParserState
  /-- index of the CRC byte of the frame being read; meaningful while reading -/
  target : BitVec 6
  /-- index of the byte most recently stored in `buf` (R23) -/
  cursor : BitVec 6
  /-- the Raw Frame's lifetime (R26) -/
  frameValid : Bool
  /-- the working buffer, index 0 to 63 (R22) -/
  buf : Memory
  /-- the host's output buffer (R30) -/
  outBuffer : Memory
  /-- model's own: the result of the latest operation, an output no operation reads (R27) -/
  answer : Option Result
  /-- model's own: operations issued and not yet taken, oldest first (20_memory.md R46) -/
  requests : List Request
  /-- model's own: numbers the resets, for the free values -/
  epoch : Nat
deriving DecidableEq, Repr

/-- The block has no way to stop with a fault: "the core never panics on malformed input" (60_exceptions.md R197),
and no behaviour is stuck (93_implementation_defined.md). Nobody raises one (log 23, safe). -/
inductive Fault where
deriving DecidableEq, Repr

/-- Why an operation has no next state. Every one of them is a request that the operand types cannot express, so
each is safe: the block is never given it. -/
inductive Refusal where
  /-- raised by an arm of `exec` that has no meaning yet (safe); none is left -/
  | notModelled (mnemonic : String)
  /-- raised by `step`: the request's bytes stand for no operation (safe; log 17) -/
  | illFormedRequest (reason : Reject)
  /-- raised by ENCODE_FRAME: the destination is not a member of ADDR_SET, which the spec tells a model to refuse
  (93_implementation_defined.md U15; safe) -/
  | destinationNotAddress (destination : Byte)
  /-- raised by ENCODE_FRAME: the record's variant has no codec and cannot be presented (45_frame_encoder.md R171;
  safe) -/
  | recordNotRegistered (record : Record)
deriving DecidableEq, Repr

/-- Power-on (10_state.md R32). The spec leaves `target` and `buf` unspecified: `target` is 0 by DESIGN CHOICE
(log 13, unsafe), `buf` lists nothing (log 11). The host has issued nothing and holds no output (log 5, 9, 10). -/
def State.reset : State where
  state := .awaitingSync
  target := 0
  cursor := 0
  frameValid := false
  buf := []
  outBuffer := []
  answer := none
  requests := []
  epoch := 0

end Sys2Proof.Machine
end

