-- ==== Sys2Proof/Machine/Flags.lean ====
section
/-! DEFINITION. The block's one flag, `frame_valid` (10_state.md R26, R27). -/

namespace Sys2Proof.Machine

/-- Cleared at the start of every PUSH_BYTE (40_frame_fsm.md R92) and by RESET (R90). -/
def State.invalidateFrame (s : State) : State := { s with frameValid := false }

/-- Set by the PUSH_BYTE that returns `Complete` (R95), and by nothing else. -/
def State.validateFrame (s : State) : State := { s with frameValid := true }

end Sys2Proof.Machine
end

