-- ==== Sys2Proof/Machine/Ops.lean ====
section
/-! DEFINITION. The named operations over the registers, the buffers and the result of an operation. -/

namespace Sys2Proof.Machine

/-- The byte listed at an index, if any. -/
def Memory.byteAt (m : Memory) (a : Nat) : Option Byte :=
  match m with
  | [] => none
  | (k, b) :: rest => if k = a then some b else Memory.byteAt rest a

/-- Store one byte, keeping the indices strictly rising. -/
def Memory.store (m : Memory) (a : Nat) (b : Byte) : Memory :=
  match m with
  | [] => [(a, b)]
  | (k, c) :: rest =>
    if a < k then (a, b) :: (k, c) :: rest
    else if a = k then (a, b) :: rest
    else (k, c) :: Memory.store rest a b

/-- Store bytes at consecutive indices from `a`. -/
def Memory.storeAll (m : Memory) (a : Nat) (bs : List Byte) : Memory :=
  match bs with
  | [] => m
  | b :: rest => Memory.storeAll (m.store a b) (a + 1) rest

/-- `BufRead(i)` (00_scope.md R9). A byte nothing has written since power-on or RESET is a free value (10_state.md
R32, U1; log 11). -/
def State.bufRead (s : State) (i : Nat) : Byte := (s.buf.byteAt i).getD (Config.freeByte s.epoch i)

/-- `buf[a..b)` (00_scope.md R9). -/
def State.bufSlice (s : State) (a b : Nat) : List Byte := (List.range' a (b - a)).map s.bufRead

/-- `BufWrite(i, b)` (00_scope.md R9); the index is the 6 bits of the cursor, so it lies in the buffer. -/
def State.bufWrite (s : State) (i : BitVec 6) (b : Byte) : State := { s with buf := s.buf.store i.toNat b }

/-- The byte of the host's output buffer at an index, where the block has written one (10_state.md R30). -/
def State.outRead (s : State) (a : Nat) : Option Byte := s.outBuffer.byteAt a

/-- Write `out_buffer[0..n)` (42_codec_dispatch.md R129, 45_frame_encoder.md R171). -/
def State.outWrite (s : State) (bs : List Byte) : State := { s with outBuffer := s.outBuffer.storeAll 0 bs }

/-- `state <- p`. -/
def State.enter (s : State) (p : ParserState) : State := { s with state := p }

/-- `cursor <- c`. -/
def State.setCursor (s : State) (c : BitVec 6) : State := { s with cursor := c }

/-- `target <- t`. -/
def State.setTarget (s : State) (t : BitVec 6) : State := { s with target := t }

/-- Leave `target` and `buf` unspecified, as RESET does (10_state.md R32, 40_frame_fsm.md R90): `target` becomes a
free value, and every byte of `buf` reads as one (log 11, 12). -/
def State.forget (s : State) : State :=
  { s with target := Config.freeTarget s.epoch, buf := [], epoch := s.epoch + 1 }

/-- `return r`: the result of an operation, in place of the one before (00_scope.md R9, 10_state.md R27). -/
def State.reply (s : State) (r : Result) : State := { s with answer := some r }

/-- An operation that ends with a state and a result. -/
def respond (sr : State × Result) : Host.Outcome State Fault Refusal := .next (sr.1.reply sr.2)

/-- Raising an error is the block's whole exception entry (60_exceptions.md R197, R202): nothing is saved, no
mode changes, control goes nowhere; the state writes are those its rule makes before it. -/
def raiseError (s : State) (k : ErrorKind) : State × Result := (s, .error k)

/-- A framing error found inside a frame: "reset to awaiting-sync", which writes `state` only (10_state.md R32,
70_reset_and_hazards.md R220), and the error. There is no return from it (60_exceptions.md R203). -/
def raiseFraming (s : State) (k : ErrorKind) : State × Result := raiseError (s.enter .awaitingSync) k

end Sys2Proof.Machine
end

