-- ==== Sys2Proof/Machine/Digest.lean ====
section
/-! DEFINITION. CRC8_DIGEST (41_crc8.md R112). -/

namespace Sys2Proof.Machine

/-- CRC8_DIGEST in a build. -/
def crc8DigestWith (p : Params) (bytes : List Byte) (s : State) : Host.Outcome State Fault Refusal :=
  respond (s, .crc (frameDigest p bytes))

/-- CRC8_DIGEST (R112). It cannot fail, and reads and writes no state. -/
def execCrc8Digest (bytes : List Byte) (s : State) : Host.Outcome State Fault Refusal :=
  crc8DigestWith params bytes s

end Sys2Proof.Machine
end

