-- ==== Sys2Proof/Machine/Contract.lean ====
section
/-! DEFINITION. The codec contract (42_codec_dispatch.md R120, R121, R129, R131): the length rule of every decode
and the capacity rule of every encode. -/

namespace Sys2Proof.Machine

/-- The decode length rule (R121): the check comes before any field is read. -/
def lengthOk (p : Params) (minPayload : Nat) (fixedSize : Bool) (n : Nat) : Bool :=
  minPayload ≤ n && !(p.fixedLenExact && fixedSize && n != minPayload)

/-- A decode: the length rule, then the content (R121, 60_exceptions.md R201). -/
def decodeChecked (p : Params) (minPayload : Nat) (fixedSize : Bool)
    (content : List Byte → Except ErrorKind Record) (payload : List Byte) : Except ErrorKind Record :=
  if lengthOk p minPayload fixedSize payload.length then content payload else .error .invalidPayloadLength

/-- The capacity rule (R129): the check comes before any write. -/
def encodeInto (cap : Nat) (bytes : List Byte) : Except ErrorKind (List Byte) :=
  if cap < bytes.length then .error .bufferOverflow else .ok bytes

/-- The result of a decode. -/
def decodeResult : Except ErrorKind Record → Result
  | .ok r => .packet (.record r)
  | .error k => .error k

/-- Give the host `bytes` in its output buffer of capacity `cap`: all of them, or `BufferOverflow` and none
(R129, 60_exceptions.md R195). -/
def deliver (cap : Nat) (bytes : List Byte) (s : State) : State × Result :=
  match encodeInto cap bytes with
  | .error k => raiseError s k
  | .ok bs => (s.outWrite bs, .written bs.length bs)

end Sys2Proof.Machine
end

