-- ==== Sys2Proof/Machine/Baro.lean ====
section
/-! DEFINITION. The altitude / vertical-speed codec (44_baro_altitude.md): BARO_DECODE, BARO_ENCODE, ALT_UNPACK,
ALT_PACK, VS_UNPACK, VS_PACK. -/

namespace Sys2Proof.Machine

/-- The two fields of a payload: altitude big-endian, then vertical speed (R151, R152). PRESUMED: the layout is the
spec's general knowledge (log 21). -/
def baroUnpack (b : List Byte) : Record :=
  .baroAltitude (BitVec.ofNat 16 ((b.getD 0 0).toNat <<< 8 ||| (b.getD 1 0).toNat)) (BitVec.ofInt 8 (sext8 (b.getD 2 0)))

/-- The three field bytes, `[altitude_packed[15:8], altitude_packed[7:0], to_u8(vspeed_packed)]` (R153). -/
def baroFields (alt : BitVec 16) (vs : BitVec 8) : List Byte :=
  [alt.extractLsb' 8 8, alt.extractLsb' 0 8, toU8 vs.toInt]

/-- The payload of an altitude record: its field bytes, which are all of it where BARO_PAYLOAD is 3 (R153); any
further byte of a longer payload is a free value (log 30). -/
def baroPack (p : Params) (alt : BitVec 16) (vs : BitVec 8) : List Byte :=
  baroFields alt vs ++ (List.range' 3 (p.baroPayload - 3)).map Config.freeBaroByte

/-- The altitude codec's decode (R152). -/
def baroDecodeRecord (p : Params) (payload : List Byte) : Except ErrorKind Record :=
  decodeChecked p p.baroPayload true (fun b => .ok (baroUnpack b)) payload

/-- ALT_UNPACK's value in decimetres (R154). -/
def altUnpackDm (p : Params) (packed : BitVec 16) : Int :=
  if packed.msb then (packed.extractLsb' 0 15).toNat * 10 else (packed.toNat : Int) - p.altOffsetDm

/-- ALT_THRESHOLD_DM, derived: the first altitude whose offset field has more than 15 bits (R155). -/
def altThresholdDm (p : Params) : Int := 0x8000 - p.altOffsetDm

/-- ALT_PACK's field (R155), computed in the integers. The metre rounding is half up (log 16). -/
def altPackField (p : Params) (d : Int) : BitVec 16 :=
  if d < -p.altOffsetDm then 0
  else if d < altThresholdDm p then BitVec.ofInt 16 (d + p.altOffsetDm)
  else
    let m := (d + 5) / 10
    0x8000#16 ||| BitVec.ofInt 16 (if m > p.altMaxM then p.altMaxM else m)

/-- `q(m)`, the largest `q` with `VS_PACK_T[q] ≤ m` (R159). The table rises from 0, so it is one less than the
number of entries that are at most `m`. -/
def vsPackIndex (t : VsTables) (m : Nat) : Nat := t.packThresholds.countP (fun x => x ≤ m) - 1

/-- VS_PACK's value (R158): sign times index, saturated to the field (log 15). -/
def vsPackValue (t : VsTables) (v : Int) : Int :=
  let x := v.sign * vsPackIndex t v.natAbs
  if x > 127 then 127 else if x < -128 then -128 else x

/-- The magnitude table that VS_UNPACK_ROUND selects (R160; log 19). -/
def vsUnpackTable (t : VsTables) : Rounding → List Nat
  | .trunc => t.unpackTruncated
  | .nearest => t.unpackNearest

/-- VS_UNPACK's value in cm/s (R160). A magnitude of an `i8` is at most 128, the table's last index. -/
def vsUnpackValue (t : VsTables) (r : Rounding) (packed : Int) : Int :=
  packed.sign * ((vsUnpackTable t r).getD packed.natAbs 0 : Nat)

/-- BARO_DECODE in a build. -/
def baroDecodeWith (p : Params) (payload : List Byte) (s : State) : Host.Outcome State Fault Refusal :=
  respond (s, decodeResult (baroDecodeRecord p payload))

/-- BARO_DECODE (R152). -/
def execBaroDecode (payload : List Byte) (s : State) : Host.Outcome State Fault Refusal :=
  baroDecodeWith params payload s

/-- BARO_ENCODE in a build. -/
def baroEncodeWith (p : Params) (alt : BitVec 16) (vs : BitVec 8) (outCap : Nat) (s : State) :
    Host.Outcome State Fault Refusal :=
  respond (deliver outCap (baroPack p alt vs) s)

/-- BARO_ENCODE (R153). -/
def execBaroEncode (alt : BitVec 16) (vs : BitVec 8) (outCap : Nat) (s : State) :
    Host.Outcome State Fault Refusal :=
  baroEncodeWith params alt vs outCap s

/-- ALT_UNPACK in a build. -/
def altUnpackWith (p : Params) (packed : BitVec 16) (s : State) : Host.Outcome State Fault Refusal :=
  respond (s, .altitudeDm (BitVec.ofInt 32 (altUnpackDm p packed)))

/-- ALT_UNPACK (R154). -/
def execAltUnpack (packed : BitVec 16) (s : State) : Host.Outcome State Fault Refusal := altUnpackWith params packed s

/-- ALT_PACK in a build. -/
def altPackWith (p : Params) (altitudeDm : BitVec 32) (s : State) : Host.Outcome State Fault Refusal :=
  respond (s, .altitudePacked (altPackField p altitudeDm.toInt))

/-- ALT_PACK (R155). -/
def execAltPack (altitudeDm : BitVec 32) (s : State) : Host.Outcome State Fault Refusal :=
  altPackWith params altitudeDm s

/-- VS_UNPACK in a build. -/
def vsUnpackWith (p : Params) (packed : BitVec 8) (s : State) : Host.Outcome State Fault Refusal :=
  respond (s, .speed (BitVec.ofInt 16 (vsUnpackValue p.vsTables p.vsUnpackRound packed.toInt)))

/-- VS_UNPACK (R160). -/
def execVsUnpack (packed : BitVec 8) (s : State) : Host.Outcome State Fault Refusal := vsUnpackWith params packed s

/-- VS_PACK in a build. -/
def vsPackWith (p : Params) (v : BitVec 16) (s : State) : Host.Outcome State Fault Refusal :=
  respond (s, .vspeedPacked (BitVec.ofInt 8 (vsPackValue p.vsTables v.toInt)))

/-- VS_PACK (R158). -/
def execVsPack (v : BitVec 16) (s : State) : Host.Outcome State Fault Refusal := vsPackWith params v s

end Sys2Proof.Machine
end

