-- ==== Sys2Proof/Machine/LinkStat.lean ====
section
/-! DEFINITION. The link-statistics codec: LINKSTAT_DECODE and LINKSTAT_ENCODE (42_codec_dispatch.md R126, R127). -/

namespace Sys2Proof.Machine

/-- LINKSTAT_PAYLOAD (R126). -/
def linkstatPayload : Nat := 10

/-- The link-statistics codec's decode (R126): `f[i] = payload[i]`. -/
def linkstatDecodeRecord (p : Params) (payload : List Byte) : Except ErrorKind Record :=
  decodeChecked p linkstatPayload true (fun b => .ok (.linkStatistics (linkFieldsOf b))) payload

/-- The field names of R126, from general knowledge and used by no rule (log 28). -/
def linkFieldNames : List String :=
  ["uplink RSSI antenna 1", "uplink RSSI antenna 2", "uplink link quality", "uplink SNR", "active antenna",
   "RF mode", "uplink transmit power", "downlink RSSI", "downlink link quality", "downlink SNR"]

/-- LINKSTAT_DECODE in a build. -/
def linkstatDecodeWith (p : Params) (payload : List Byte) (s : State) : Host.Outcome State Fault Refusal :=
  respond (s, decodeResult (linkstatDecodeRecord p payload))

/-- LINKSTAT_DECODE (R126). -/
def execLinkstatDecode (payload : List Byte) (s : State) : Host.Outcome State Fault Refusal :=
  linkstatDecodeWith params payload s

/-- LINKSTAT_ENCODE (R127), the same in every build. -/
def execLinkstatEncode (f : LinkFields) (outCap : Nat) (s : State) : Host.Outcome State Fault Refusal :=
  respond (deliver outCap f.toList s)

end Sys2Proof.Machine
end

