-- ==== Sys2Proof/Machine/RcChannels.lean ====
section
/-! DEFINITION. The bit-packed channel codec: RC_DECODE and RC_ENCODE (43_rc_channels.md). -/

namespace Sys2Proof.Machine

/-- RC_PAYLOAD, 16 × 11 / 8 (R140). -/
def rcPayload : Nat := 22

/-- One channel, in the integers, masked to 11 bits as R142's formulas are. -/
def channelOf (v : Nat) : BitVec 11 := BitVec.ofNat 11 (v &&& 0x7FF)

/-- The decode table of R142 over the widened bytes `b`. -/
def rcTable (b : Nat → Nat) : Channels :=
  #v[channelOf (b 0 ||| b 1 <<< 8),
     channelOf (b 1 >>> 3 ||| b 2 <<< 5),
     channelOf (b 2 >>> 6 ||| b 3 <<< 2 ||| b 4 <<< 10),
     channelOf (b 4 >>> 1 ||| b 5 <<< 7),
     channelOf (b 5 >>> 4 ||| b 6 <<< 4),
     channelOf (b 6 >>> 7 ||| b 7 <<< 1 ||| b 8 <<< 9),
     channelOf (b 8 >>> 2 ||| b 9 <<< 6),
     channelOf (b 9 >>> 5 ||| b 10 <<< 3),
     channelOf (b 11 ||| b 12 <<< 8),
     channelOf (b 12 >>> 3 ||| b 13 <<< 5),
     channelOf (b 13 >>> 6 ||| b 14 <<< 2 ||| b 15 <<< 10),
     channelOf (b 15 >>> 1 ||| b 16 <<< 7),
     channelOf (b 16 >>> 4 ||| b 17 <<< 4),
     channelOf (b 17 >>> 7 ||| b 18 <<< 1 ||| b 19 <<< 9),
     channelOf (b 19 >>> 2 ||| b 20 <<< 6),
     channelOf (b 20 >>> 5 ||| b 21 <<< 3)]

/-- The content of a channel payload: every one is legal (R142). -/
def rcUnpack (payload : List Byte) : Channels := rcTable fun k => (payload.getD k 0).toNat

/-- One payload byte, masked as R144's formulas are. -/
def payloadByteOf (v : Nat) : Byte := BitVec.ofNat 8 (v &&& 0xFF)

/-- The encode table of R144 over the widened channels `c`. -/
def rcBytes (c : Nat → Nat) : List Byte :=
  [payloadByteOf (c 0),
   payloadByteOf (c 0 >>> 8 ||| c 1 <<< 3),
   payloadByteOf (c 1 >>> 5 ||| c 2 <<< 6),
   payloadByteOf (c 2 >>> 2),
   payloadByteOf (c 2 >>> 10 ||| c 3 <<< 1),
   payloadByteOf (c 3 >>> 7 ||| c 4 <<< 4),
   payloadByteOf (c 4 >>> 4 ||| c 5 <<< 7),
   payloadByteOf (c 5 >>> 1),
   payloadByteOf (c 5 >>> 9 ||| c 6 <<< 2),
   payloadByteOf (c 6 >>> 6 ||| c 7 <<< 5),
   payloadByteOf (c 7 >>> 3),
   payloadByteOf (c 8),
   payloadByteOf (c 8 >>> 8 ||| c 9 <<< 3),
   payloadByteOf (c 9 >>> 5 ||| c 10 <<< 6),
   payloadByteOf (c 10 >>> 2),
   payloadByteOf (c 10 >>> 10 ||| c 11 <<< 1),
   payloadByteOf (c 11 >>> 7 ||| c 12 <<< 4),
   payloadByteOf (c 12 >>> 4 ||| c 13 <<< 7),
   payloadByteOf (c 13 >>> 1),
   payloadByteOf (c 13 >>> 9 ||| c 14 <<< 2),
   payloadByteOf (c 14 >>> 6 ||| c 15 <<< 5),
   payloadByteOf (c 15 >>> 3)]

/-- The payload of a channel record (R144). -/
def rcPack (ch : Channels) : List Byte := rcBytes fun i => (ch.toList.getD i 0).toNat

/-- The channel codec's decode (R142). -/
def rcDecodeRecord (p : Params) (payload : List Byte) : Except ErrorKind Record :=
  decodeChecked p rcPayload true (fun b => .ok (.rcChannels (rcUnpack b))) payload

/-- `ticks_to_us` (R145): informative, exact over the rationals; no operation computes it (log 25). -/
def ticksToUs (x : BitVec 11) : Rat := ((x.toNat : Rat) - 992) * 5 / 8 + 1500

/-- RC_DECODE in a build. -/
def rcDecodeWith (p : Params) (payload : List Byte) (s : State) : Host.Outcome State Fault Refusal :=
  respond (s, decodeResult (rcDecodeRecord p payload))

/-- RC_DECODE (R142). -/
def execRcDecode (payload : List Byte) (s : State) : Host.Outcome State Fault Refusal :=
  rcDecodeWith params payload s

/-- RC_ENCODE (R144), the same in every build. -/
def execRcEncode (ch : Channels) (outCap : Nat) (s : State) : Host.Outcome State Fault Refusal :=
  respond (deliver outCap (rcPack ch) s)

end Sys2Proof.Machine
end

