-- ==== Sys2Proof/Machine/Registry.lean ====
section
/-! DEFINITION. The dispatch registry, the pure function `dispatch`, DISPATCH and the four wire-tag rows
(42_codec_dispatch.md R122 to R125, 30_encoding.md R76). -/

namespace Sys2Proof.Machine

/-- A codec: the four members of the contract (R120). `payloadOf` is the content of its encode, the payload of a
record of its own variant; the capacity rule is applied where the bytes are delivered (R129, R171). -/
structure Codec where
  packetType : Byte
  minPayload : Nat
  decode : List Byte → Except ErrorKind Record
  payloadOf : Record → Option (List Byte)

/-- The link-statistics codec (R123, R126, R127). -/
def linkstatCodec (p : Params) : Codec where
  packetType := p.tagLinkstat
  minPayload := linkstatPayload
  decode := linkstatDecodeRecord p
  payloadOf
    | .linkStatistics f => some f.toList
    | _ => none

/-- The channel codec (R123, 43_rc_channels.md R140). -/
def rcCodec (p : Params) : Codec where
  packetType := p.tagRc
  minPayload := rcPayload
  decode := rcDecodeRecord p
  payloadOf
    | .rcChannels ch => some (rcPack ch)
    | _ => none

/-- The altitude / vertical-speed codec (R123, 44_baro_altitude.md R150). -/
def baroCodec (p : Params) : Codec where
  packetType := p.tagBaro
  minPayload := p.baroPayload
  decode := baroDecodeRecord p
  payloadOf
    | .baroAltitude alt vs => some (baroPack p alt vs)
    | _ => none

/-- A codec of REGISTRY_EXTRA under the contract of R120: the length rule, then its own content check; a
fixed-size record is decoded from its first MIN_PAYLOAD_SIZE bytes (R121). -/
def extraDecodeRecord (p : Params) (c : ExtraCodec) (payload : List Byte) : Except ErrorKind Record :=
  decodeChecked p c.minPayload c.fixedSize
    (fun b =>
      match c.decode (if c.fixedSize then b.take c.minPayload else b) with
      | some fields => .ok (.extra c.tag fields)
      | none => .error .invalidPayload)
    payload

/-- An entry of REGISTRY_EXTRA as a codec. -/
def extraCodec (p : Params) (c : ExtraCodec) : Codec where
  packetType := c.tag
  minPayload := c.minPayload
  decode := extraDecodeRecord p c
  payloadOf
    | .extra tag fields => if tag = c.tag then some (c.encode fields) else none
    | _ => none

/-- The registry (R123): three codecs, extended by REGISTRY_EXTRA. -/
def registry (p : Params) : List Codec :=
  [linkstatCodec p, rcCodec p, baroCodec p] ++ p.registryExtra.map (extraCodec p)

/-- Look a tag up, decode the payload view; an unregistered tag is `NotImplemented`, not an error (R124). -/
def dispatchPayload (p : Params) (tag : Byte) (payload : List Byte) : Result :=
  match (registry p).find? (fun c => c.packetType == tag) with
  | some c => decodeResult (c.decode payload)
  | none => .packet (.notImplemented tag payload.length)

/-- The pure function `dispatch` over the bytes of a Raw Frame (R124). -/
def dispatchFrame (p : Params) (f : List Byte) : Result := dispatchPayload p (frameTag f) (framePayload f)

/-- DISPATCH in a build: `buf[2]` and the payload view `buf[3..cursor)` (R125, 40_frame_fsm.md R102). -/
def dispatchStep (p : Params) (s : State) : State × Result :=
  if s.frameValid then (s, dispatchPayload p (s.bufRead 2) (s.bufSlice 3 s.cursor.toNat))
  else (s, .refused .noFrame)

/-- DISPATCH in a build. -/
def dispatchWith (p : Params) (s : State) : Host.Outcome State Fault Refusal := respond (dispatchStep p s)

/-- A wire-tag row in a build: `dispatch` of the Raw Frame with that address, tag and payload (R76, R124).
DESIGN CHOICE: the same on operands that form no Raw Frame (an address outside ADDR_SET, a size R62 excludes), to
which R124 gives no meaning (log 32, unsafe). A step never gets there: the decoder refuses such a request (log 17). -/
def frameRowWith (p : Params) (address tag : Byte) (payload : List Byte) (s : State) :
    Host.Outcome State Fault Refusal :=
  respond (s, dispatchFrame p (rawFrame p address tag payload))

/-- DISPATCH (R125). -/
def execDispatch (s : State) : Host.Outcome State Fault Refusal := dispatchWith params s

/-- FRAME.LINKSTAT (R124, R126). -/
def execFrameLinkstat (address : Byte) (payload : List Byte) (s : State) : Host.Outcome State Fault Refusal :=
  frameRowWith params address params.tagLinkstat payload s

/-- FRAME.RC_CHANNELS (R124, R142). -/
def execFrameRcChannels (address : Byte) (payload : List Byte) (s : State) : Host.Outcome State Fault Refusal :=
  frameRowWith params address params.tagRc payload s

/-- FRAME.BARO_ALT (R124, R152). -/
def execFrameBaroAlt (address : Byte) (payload : List Byte) (s : State) : Host.Outcome State Fault Refusal :=
  frameRowWith params address params.tagBaro payload s

/-- FRAME.NOT_IMPLEMENTED (R124): the fallback, tried where no other row matches. -/
def execFrameNotImplemented (address tag : Byte) (payload : List Byte) (s : State) :
    Host.Outcome State Fault Refusal :=
  frameRowWith params address tag payload s

/-- The reserved op code 0xF (30_encoding.md R75, 60_exceptions.md R198): a result, and no state change. -/
def execReserved0xF (s : State) : Host.Outcome State Fault Refusal := respond (s, .refused .illegalOp)

end Sys2Proof.Machine
end

