-- ==== Sys2Proof/Machine/Encoder.lean ====
section
/-! DEFINITION. The frame encoder: ENCODE_FRAME (45_frame_encoder.md). -/

namespace Sys2Proof.Machine

/-- The PACKET_TYPE and the payload of a record, by the codec of its variant (R123); a record whose variant has no
codec cannot be presented (R171). -/
def encodePayload (p : Params) (record : Record) : Except Refusal (Byte × List Byte) :=
  match (registry p).findSome? fun c => (c.payloadOf record).map fun payload => (c.packetType, payload) with
  | some r => .ok r
  | none => .error (.recordNotRegistered record)

/-- R171 after the codec: its payload into the scratch of ENC_SCRATCH bytes, then the capacity check, then the frame. -/
def encodeFrameBytes (p : Params) (destination tag : Byte) (payload : List Byte) (outCap : Nat) (s : State) :
    State × Result :=
  match encodeInto p.encScratch payload with
  | .error k => raiseError s k
  | .ok scratch => deliver outCap (rawFrame p destination tag scratch) s

/-- ENCODE_FRAME in a build. A destination outside ADDR_SET or a record without a codec is outside its
precondition, and the spec tells a model to refuse it (R171, R74, U15). -/
def encodeFrameWith (p : Params) (destination : Byte) (record : Record) (outCap : Nat) (s : State) :
    Host.Outcome State Fault Refusal :=
  if destination ∈ p.addrSet then
    match encodePayload p record with
    | .error r => .refused r
    | .ok (tag, payload) => respond (encodeFrameBytes p destination tag payload outCap s)
  else .refused (.destinationNotAddress destination)

/-- ENCODE_FRAME (R171). -/
def execEncodeFrame (destination : Byte) (record : Record) (outCap : Nat) (s : State) :
    Host.Outcome State Fault Refusal :=
  encodeFrameWith params destination record outCap s

end Sys2Proof.Machine
end

