-- ==== Sys2Proof/Machine/Sync.lean ====
section
/-! DEFINITION. The frame state machine: RESET and PUSH_BYTE (40_frame_fsm.md). -/

namespace Sys2Proof.Machine

/-- "Append `byte`" (10_state.md R23): increment, then store. -/
def appendByte (byte : Byte) (s : State) : State := (s.setCursor (s.cursor + 1)).bufWrite (s.cursor + 1) byte

/-- R91. -/
def pushAwaitingSync (p : Params) (byte : Byte) (s : State) : State × Result :=
  if byte ∈ p.addrSet then (((s.setCursor 0).bufWrite 0 byte).enter .awaitingLength, .incomplete)
  else raiseError s (.invalidSync byte)

/-- R93. `total` is a Nat: it never wraps to 8 bits (00_scope.md R11). -/
def pushAwaitingLength (p : Params) (byte : Byte) (s : State) : State × Result :=
  let total := byte.toNat + 2
  if total < p.minTotal ∨ p.maxTotalExcl ≤ total then raiseFraming s (.invalidPacketLength byte)
  else
    ((((s.setCursor (s.cursor + 1)).bufWrite 1 byte).setTarget (BitVec.ofNat 6 (total - 1))).enter .reading,
      .incomplete)

/-- R94. The comparison `cursor = target − 1` is of integers. -/
def pushReading (byte : Byte) (s : State) : State × Result :=
  let t := appendByte byte s
  if t.cursor.toNat + 1 = t.target.toNat then (t.enter .awaitingCrc, .incomplete) else (t, .incomplete)

/-- R95. -/
def pushAwaitingCrc (p : Params) (byte : Byte) (s : State) : State × Result :=
  let t := appendByte byte s
  let calculated := frameDigest p (t.bufSlice 2 t.cursor.toNat)
  if calculated ≠ byte then raiseFraming t (.invalidCrc calculated byte)
  else ((t.enter .awaitingSync).validateFrame, .complete (t.cursor.toNat + 1))

/-- One PUSH_BYTE (R96): the prologue of R92, then the rule of the current state. -/
def pushByteStep (p : Params) (byte : Byte) (s : State) : State × Result :=
  match s.state with
  | .awaitingSync => pushAwaitingSync p byte s.invalidateFrame
  | .awaitingLength => pushAwaitingLength p byte s.invalidateFrame
  | .reading => pushReading byte s.invalidateFrame
  | .awaitingCrc => pushAwaitingCrc p byte s.invalidateFrame

/-- PUSH_BYTE in a build. -/
def pushByteWith (p : Params) (byte : Byte) (s : State) : Host.Outcome State Fault Refusal :=
  respond (pushByteStep p byte s)

/-- RESET, the same in every build. -/
def resetStep (s : State) : State × Result :=
  (((s.enter .awaitingSync).setCursor 0).invalidateFrame.forget, .done)

/-- RESET (R90). -/
def execReset (s : State) : Host.Outcome State Fault Refusal := respond (resetStep s)

/-- PUSH_BYTE (R96). -/
def execPushByte (byte : Byte) (s : State) : Host.Outcome State Fault Refusal := pushByteWith params byte s

end Sys2Proof.Machine
end

