-- ==== Sys2Proof/Machine/Build.lean ====
section
/-! DEFINITION. The operations and the step with the build's parameters as an argument, as 10_state.md R28 asks.
`exec` and `step` are this machine at the default build. -/

namespace Sys2Proof.Machine

/-- One operation in the build `p`. -/
def execWith (p : Params) (i : Instr) (s : State) : Host.Outcome State Fault Refusal :=
  match i with
  | .reset => respond (resetStep s)
  | .pushByte byte => pushByteWith p byte s
  | .crc8Digest bytes => crc8DigestWith p bytes s
  | .dispatch => dispatchWith p s
  | .rcDecode payload => rcDecodeWith p payload s
  | .rcEncode ch outCap => respond (deliver outCap (rcPack ch) s)
  | .baroDecode payload => baroDecodeWith p payload s
  | .baroEncode alt vs outCap => baroEncodeWith p alt vs outCap s
  | .altUnpack packed => altUnpackWith p packed s
  | .altPack altitudeDm => altPackWith p altitudeDm s
  | .vsUnpack packed => vsUnpackWith p packed s
  | .vsPack v => vsPackWith p v s
  | .linkstatDecode payload => linkstatDecodeWith p payload s
  | .linkstatEncode f outCap => respond (deliver outCap f.toList s)
  | .encodeFrame destination record outCap => encodeFrameWith p destination record outCap s
  | .reserved0xF => respond (s, .refused .illegalOp)
  | .frameLinkstat address payload => frameRowWith p address p.tagLinkstat payload s
  | .frameRcChannels address payload => frameRowWith p address p.tagRc payload s
  | .frameBaroAlt address payload => frameRowWith p address p.tagBaro payload s
  | .frameNotImplemented address tag payload => frameRowWith p address tag payload s

/-- Take the oldest request, decode it and run it; with none, the block waits unchanged (40_frame_fsm.md R100,
60_exceptions.md R200; log 8). `run` is the build's operations. -/
def serve (dec : Request → Except Reject Instr) (run : Instr → State → Host.Outcome State Fault Refusal)
    (s : State) : Host.Outcome State Fault Refusal :=
  match s.requests with
  | [] => .next s
  | r :: rest =>
    match dec r with
    | .error e => .refused (.illFormedRequest e)
    | .ok i => run i { s with requests := rest }

/-- One step in the build `p`. -/
def stepWith (p : Params) (s : State) : Host.Outcome State Fault Refusal := serve (decodeWith p) (execWith p) s

end Sys2Proof.Machine
end

