-- ==== Sys2Proof/Machine/Dispatch.lean ====
section
/-! DEFINITION. One arm per operation: each calls its meaning. -/

namespace Sys2Proof.Machine

def exec (i : Instr) (s : State) : Host.Outcome State Fault Refusal :=
  match i with
  | .reset => Sys2Proof.Machine.execReset s
  | .pushByte byte => Sys2Proof.Machine.execPushByte byte s
  | .crc8Digest bytes => Sys2Proof.Machine.execCrc8Digest bytes s
  | .dispatch => Sys2Proof.Machine.execDispatch s
  | .rcDecode payload => Sys2Proof.Machine.execRcDecode payload s
  | .rcEncode ch outCap => Sys2Proof.Machine.execRcEncode ch outCap s
  | .baroDecode payload => Sys2Proof.Machine.execBaroDecode payload s
  | .baroEncode alt vs outCap => Sys2Proof.Machine.execBaroEncode alt vs outCap s
  | .altUnpack packed => Sys2Proof.Machine.execAltUnpack packed s
  | .altPack altitudeDm => Sys2Proof.Machine.execAltPack altitudeDm s
  | .vsUnpack packed => Sys2Proof.Machine.execVsUnpack packed s
  | .vsPack v => Sys2Proof.Machine.execVsPack v s
  | .linkstatDecode payload => Sys2Proof.Machine.execLinkstatDecode payload s
  | .linkstatEncode f outCap => Sys2Proof.Machine.execLinkstatEncode f outCap s
  | .encodeFrame destination record outCap => Sys2Proof.Machine.execEncodeFrame destination record outCap s
  | .reserved0xF => Sys2Proof.Machine.execReserved0xF s
  | .frameLinkstat address payload => Sys2Proof.Machine.execFrameLinkstat address payload s
  | .frameRcChannels address payload => Sys2Proof.Machine.execFrameRcChannels address payload s
  | .frameBaroAlt address payload => Sys2Proof.Machine.execFrameBaroAlt address payload s
  | .frameNotImplemented address tag payload => Sys2Proof.Machine.execFrameNotImplemented address tag payload s

end Sys2Proof.Machine
end

