-- ==== Sys2Proof/Machine/Step.lean ====
section
/-! DEFINITION. One step of the default build, and where a word of the opcode table is placed. -/

namespace Sys2Proof.Machine

/-- One step: the oldest request the host has issued, decoded and run (20_memory.md R46; log 5). -/
def step (s : State) : Host.Outcome State Fault Refusal := serve decode exec s

/-- `s` with the operation a table word stands for issued as the oldest request, so that the next step runs it.
The host issuing a request is how every program comes to run (log 5). -/
def State.withFetchWord (s : State) (nbits w : Nat) : State :=
  { s with requests := tableRequest nbits w :: s.requests }

end Sys2Proof.Machine
end

