-- ==== Sys2Proof/Machine/Codes.lean ====
section
/-! DEFINITION. The hardware renderings the spec gives its tagged values: the state code of 10_state.md R24 and the
result codes and side outputs of 60_exceptions.md R199. No operation reads them. -/

namespace Sys2Proof.Machine

/-- The 2-bit code of the parser state (R24). -/
def ParserState.code : ParserState → BitVec 2
  | .awaitingSync => 0b00
  | .awaitingLength => 0b01
  | .reading => 0b10
  | .awaitingCrc => 0b11

/-- The codes 1 to 8 of the error kinds (R197). -/
def errorCode : ErrorKind → BitVec 4
  | .invalidSync _ => 1
  | .invalidPacketLength _ => 2
  | .invalidCrc _ _ => 3
  | .invalidPayloadLength => 4
  | .invalidPayload => 5
  | .bufferOverflow => 6
  | .unexpectedEof => 7
  | .io _ => 8

/-- The result code (R199): 0 success, 1 to 8 the errors, 9 `Complete`, 14 and 15 the refusals. -/
def resultCode : Result → BitVec 4
  | .error k => errorCode k
  | .complete _ => 9
  | .refused .noFrame => 14
  | .refused .illegalOp => 15
  | .done | .incomplete | .crc _ | .packet _ | .written _ _ | .altitudeDm _ | .altitudePacked _ | .speed _
  | .vspeedPacked _ => 0

/-- The 6-bit side output `len` (R199). -/
def resultLen : Result → Option (BitVec 6)
  | .complete len => some (BitVec.ofNat 6 len)
  | _ => none

/-- The side output `byte` of codes 1 and 2 (R199). -/
def resultByte : Result → Option Byte
  | .error (.invalidSync b) | .error (.invalidPacketLength b) => some b
  | _ => none

/-- The side outputs `calculated` and `received` of code 3 (R199). -/
def resultCrcs : Result → Option (Byte × Byte)
  | .error (.invalidCrc calculated received) => some (calculated, received)
  | _ => none

end Sys2Proof.Machine
end

