-- ==== Sys2Proof/Machine/Sequence.lean ====
section
/-! DEFINITION. Sequences of operations: traces (30_encoding.md R77), PUSH_BYTES (R78) and the packet sequence
PARSE_BUFFER (46_packet_sequence.md R180). They are compositions of operations, not operations. -/

namespace Sys2Proof.Machine

/-- Run operations in order and list their results; an operation the model refuses ends the trace without one. -/
def trace (p : Params) : List Instr → State → State × List Result
  | [], s => (s, [])
  | i :: is, s =>
    match execWith p i s with
    | .next t =>
      let (u, rs) := trace p is t
      (u, t.answer.toList ++ rs)
    | .fault _ | .refused _ => (s, [])

/-- PUSH_BYTES (R78): a PUSH_BYTE for each byte, the results in order. -/
def pushBytes (p : Params) (bytes : List Byte) (s : State) : State × List Result :=
  trace p (bytes.map .pushByte) s

/-- The byte an operation pushes, if it is a PUSH_BYTE. -/
def pushedByte : Instr → Option Byte
  | .pushByte b => some b
  | .reset | .crc8Digest _ | .dispatch | .rcDecode _ | .rcEncode _ _ | .baroDecode _ | .baroEncode _ _ _
  | .altUnpack _ | .altPack _ | .vsUnpack _ | .vsPack _ | .linkstatDecode _ | .linkstatEncode _ _
  | .encodeFrame _ _ _ | .reserved0xF | .frameLinkstat _ _ | .frameRcChannels _ _ | .frameBaroAlt _ _
  | .frameNotImplemented _ _ _ => none

/-- The body of R180's loop: push each byte; a `Complete` is followed by a DISPATCH whose result is an element, an
error is an element, an `Incomplete` is nothing. -/
def parseFrom (p : Params) : List Byte → State → List Result
  | [], _ => []
  | b :: bs, s =>
    match execWith p (.pushByte b) s with
    | .next t =>
      match t.answer with
      | some (.complete _) =>
        match execWith p .dispatch t with
        | .next u => u.answer.toList ++ parseFrom p bs u
        | .fault _ | .refused _ => []
      | some (.error k) => .error k :: parseFrom p bs t
      | _ => parseFrom p bs t
    | .fault _ | .refused _ => []

/-- PARSE_BUFFER (R180), on an instance of its own that starts with RESET (log 29). -/
def parseBuffer (p : Params) (bytes : List Byte) : List Result :=
  match execWith p .reset State.reset with
  | .next s => parseFrom p bytes s
  | .fault _ | .refused _ => []

end Sys2Proof.Machine
end

