-- ==== Sys2Proof/Safety.lean ====
section
/-! DEFINITION. What holds in every state a run reaches (10_state.md R31), and what a safe step is. -/

namespace Sys2Proof.Safety

open Machine

/-- Every byte of `buf[0..n)` has been written since the reset that came last (the sentence after R31's table). -/
abbrev Written (s : State) (n : Nat) : Prop := ∀ i < n, (s.buf.byteAt i).isSome

/-- A frame of `n` bytes has a size the build accepts (30_encoding.md R62): in the default build 4 to 63. -/
abbrev FrameSize (p : Params) (n : Nat) : Prop := p.minTotal ≤ n ∧ n < p.maxTotalExcl

/-- What R31 says while `frame_valid = 1`. -/
abbrev HeldFrame (p : Params) (s : State) : Prop :=
  s.cursor.toNat = (s.bufRead 1).toNat + 1 ∧ s.bufRead 0 ∈ p.addrSet ∧ FrameSize p ((s.bufRead 1).toNat + 2) ∧
    s.bufRead s.cursor.toNat = frameDigest p (s.bufSlice 2 s.cursor.toNat) ∧ Written s (s.cursor.toNat + 1)

/-- The row `AwaitingLength` of R31's table. -/
abbrev LengthRow (p : Params) (s : State) : Prop :=
  s.cursor = 0 ∧ s.bufRead 0 ∈ p.addrSet ∧ s.frameValid = false ∧ Written s 1

/-- The row `Reading(target)` of R31's table. -/
abbrev ReadingRow (p : Params) (s : State) : Prop :=
  FrameSize p (s.target.toNat + 1) ∧ (s.bufRead 1).toNat + 1 = s.target.toNat ∧ 1 ≤ s.cursor.toNat ∧
    s.cursor.toNat + 2 ≤ s.target.toNat ∧ s.bufRead 0 ∈ p.addrSet ∧ s.frameValid = false ∧
    Written s (s.cursor.toNat + 1)

/-- The row `AwaitingCrc` of R31's table. -/
abbrev CrcRow (p : Params) (s : State) : Prop :=
  s.cursor.toNat = (s.bufRead 1).toNat ∧ FrameSize p (s.cursor.toNat + 2) ∧ s.bufRead 0 ∈ p.addrSet ∧
    s.frameValid = false ∧ Written s (s.cursor.toNat + 1)

/-- The two buffers are in canonical form, every index of `buf` is below 64, and the cursor is at most 62
(10_state.md R22, R23). -/
abbrev StorageOk (s : State) : Prop :=
  s.buf.wf ∧ (∀ c ∈ s.buf, c.1 < 64) ∧ s.outBuffer.wf ∧ s.cursor.toNat ≤ 62

/-- The row of R31's table for the current state. -/
def StateRow (p : Params) (s : State) : Prop :=
  match s.state with
  | .awaitingSync => s.frameValid = true → HeldFrame p s
  | .awaitingLength => LengthRow p s
  | .reading => ReadingRow p s
  | .awaitingCrc => CrcRow p s

/-- The invariant of R31. Its numbers are those of the build's frame sizes; in the default build they are R31's. -/
def Inv (p : Params) (s : State) : Prop := StorageOk s ∧ StateRow p s

/-- A safe outcome is a next state that keeps the invariant: the block never stops on what a host can present. -/
abbrev Safe (p : Params) (o : Host.Outcome State Fault Refusal) : Prop := ∃ t, o = .next t ∧ Inv p t

end Sys2Proof.Safety
end

