-- ==== Sys2Proof/Certificates/Slice0/Obligations.lean ====
section
/-! DEFINITION. The statements for the provers, each from the spec's rules. -/

open Sys2Proof Sys2Proof.Machine Sys2Proof.Safety

/-! ### Reset and the invariant -/

/-- Power-on (10_state.md R32): the three registers the spec gives a reset value have it, and the invariant of R31
holds, in every build. What power-on leaves in `target` and `buf` is not claimed. -/
def Obligations.PowerOnStateSatisfiesR31 : Prop :=
  ∀ p : Params, State.reset.state = .awaitingSync ∧ State.reset.cursor = 0 ∧ State.reset.frameValid = false ∧
    Inv p State.reset

/-- The default build meets what the spec requires of the parameters (R64, R123). -/
def Obligations.DefaultParametersAreLegal : Prop := params.Ok

/-- RESET (R90): it completes from every state, whatever `target` and `buf` then hold; a frame in progress is
discarded, so a byte outside ADDR_SET pushed next is an `InvalidSync`. -/
def Obligations.ResetOperationRestoresTheParser : Prop :=
  ∀ s : State, ∃ t, exec .reset s = .next t ∧ t.state = .awaitingSync ∧ t.cursor = 0 ∧ t.frameValid = false ∧
    t.answer = some .done ∧ t.outBuffer = s.outBuffer ∧ t.requests = s.requests ∧
    ∀ b, b ∉ params.addrSet →
      exec (.pushByte b) t = .next { t with answer := some (.error (.invalidSync b)) }

/-- R31: every step keeps the invariant, in every build whose sizes fit and in the default one. -/
def Obligations.EveryStepKeepsTheInvariant : Prop :=
  (∀ (p : Params) (s t : State), p.SizesOk → Inv p s → stepWith p s = .next t → Inv p t) ∧
    ∀ s t : State, Inv params s → step s = .next t → Inv params t

/-- R221: after RESET the results of every later sequence of operations depend on that sequence alone, whatever the
state before and whatever the unspecified `target` and `buf` hold. -/
def Obligations.ResetIsObservablyAFreshInstance : Prop :=
  ∀ (p : Params) (is : List Instr) (s t : State), p.SizesOk →
    (trace p (.reset :: is) s).2 = (trace p (.reset :: is) t).2

/-! ### PUSH_BYTE, state by state -/

/-- R91, with the prologue of R92. -/
def Obligations.PushInAwaitingSync : Prop :=
  ∀ (s : State) (b : Byte), s.state = .awaitingSync →
    (b ∈ params.addrSet →
      exec (.pushByte b) s = .next
        { s with frameValid := false, cursor := 0, buf := s.buf.store 0 b, state := .awaitingLength,
                 answer := some .incomplete }) ∧
    (b ∉ params.addrSet →
      exec (.pushByte b) s = .next { s with frameValid := false, answer := some (.error (.invalidSync b)) })

/-- R93, with the prologue of R92: accepted length bytes are exactly 2 to 61. -/
def Obligations.PushInAwaitingLength : Prop :=
  ∀ (s : State) (b : Byte), s.state = .awaitingLength →
    (2 ≤ b.toNat → b.toNat ≤ 61 →
      exec (.pushByte b) s = .next
        { s with frameValid := false, cursor := s.cursor + 1, buf := s.buf.store 1 b,
                 target := BitVec.ofNat 6 (b.toNat + 1), state := .reading, answer := some .incomplete }) ∧
    (b.toNat < 2 ∨ 61 < b.toNat →
      exec (.pushByte b) s = .next
        { s with frameValid := false, state := .awaitingSync,
                 answer := some (.error (.invalidPacketLength b)) })

/-- R94, with the prologue of R92: the byte is appended, and the state is left when the cursor reaches the target's
predecessor. -/
def Obligations.PushInReading : Prop :=
  ∀ (s : State) (b : Byte), s.state = .reading → s.cursor.toNat < 63 →
    exec (.pushByte b) s = .next
      { s with frameValid := false, cursor := s.cursor + 1, buf := s.buf.store (s.cursor.toNat + 1) b,
               state := if s.cursor.toNat + 2 = s.target.toNat then .awaitingCrc else .reading,
               answer := some .incomplete }

/-- R95, with the prologue of R92: the digest is of `buf[2..cursor)` after the CRC byte is appended, which are
bytes that stood there before. -/
def Obligations.PushInAwaitingCrc : Prop :=
  ∀ (s : State) (b : Byte), s.state = .awaitingCrc → s.cursor.toNat < 63 →
    exec (.pushByte b) s = .next
      (if crc8 params.crcPoly (s.bufSlice 2 (s.cursor.toNat + 1)) = b then
        { s with frameValid := true, cursor := s.cursor + 1, buf := s.buf.store (s.cursor.toNat + 1) b,
                 state := .awaitingSync, answer := some (.complete (s.cursor.toNat + 2)) }
      else
        { s with frameValid := false, cursor := s.cursor + 1, buf := s.buf.store (s.cursor.toNat + 1) b,
                 state := .awaitingSync,
                 answer := some (.error
                   (.invalidCrc (crc8 params.crcPoly (s.bufSlice 2 (s.cursor.toNat + 1))) b)) })

/-- R94 in every build. One byte: it is appended, `target` stays, the state is left exactly where the cursor reaches
`target − 1`, and the result is `Incomplete`. Many: from the length byte on, the state stays in reading for fewer
than `target − 2` bytes and is left after exactly that many. What happens to `frame_valid` is R92's. -/
def Obligations.ReadingTakesExactlyTypeAndPayload : Prop :=
  (∀ (p : Params) (s : State) (b : Byte), s.state = .reading → s.cursor.toNat < 63 → ∃ t,
    execWith p (.pushByte b) s = .next t ∧ t.cursor = s.cursor + 1 ∧
    t.buf = s.buf.store (s.cursor.toNat + 1) b ∧ t.target = s.target ∧
    t.state = (if t.cursor.toNat + 1 = t.target.toNat then .awaitingCrc else .reading) ∧
    t.answer = some .incomplete) ∧
  ∀ (p : Params) (s : State) (bs : List Byte),
    s.state = .reading → s.cursor = 1 → 3 ≤ s.target.toNat → s.target.toNat ≤ 62 →
    bs.length + 2 ≤ s.target.toNat →
    (pushBytes p bs s).2 = List.replicate bs.length .incomplete ∧
    (pushBytes p bs s).1.cursor.toNat = bs.length + 1 ∧
    ((pushBytes p bs s).1.state = .awaitingCrc ↔ bs.length + 2 = s.target.toNat) ∧
    ((pushBytes p bs s).1.state = .reading ↔ bs.length + 2 < s.target.toNat)

/-- R26, R27, R92: a PUSH_BYTE leaves `frame_valid` set only where it returns `Complete`. -/
def Obligations.PushSetsFrameValidOnlyOnComplete : Prop :=
  ∀ (s t : State) (b : Byte), exec (.pushByte b) s = .next t →
    (t.frameValid = true ↔ ∃ n, t.answer = some (.complete n))

/-- R190 to R192, R201, R98: each framing error is returned in one state only, with what it carries, and leaves the
parser in awaiting-sync. -/
def Obligations.FramingErrorsResynchronise : Prop :=
  ∀ (s t : State) (b : Byte) (k : ErrorKind), exec (.pushByte b) s = .next t → t.answer = some (.error k) →
    t.state = .awaitingSync ∧ t.frameValid = false ∧
    ((s.state = .awaitingSync ∧ k = .invalidSync b ∧ b ∉ params.addrSet ∧ t.cursor = s.cursor ∧ t.buf = s.buf) ∨
     (s.state = .awaitingLength ∧ k = .invalidPacketLength b ∧ (b.toNat < 2 ∨ 62 ≤ b.toNat) ∧
        t.cursor = s.cursor ∧ t.buf = s.buf ∧ t.target = s.target) ∨
     (s.state = .awaitingCrc ∧ t.cursor = s.cursor + 1 ∧ t.bufRead t.cursor.toNat = b ∧
        ∃ c, c ≠ b ∧ k = .invalidCrc c b))

/-- R93 in every build whose sizes fit. `total` is an integer and never wraps, and an accepted byte gives the target
its predecessor as an integer. What happens to `frame_valid` is R92's. -/
def Obligations.LengthByteSetsTheTargetOrIsRejected : Prop :=
  (∀ (p : Params) (s : State) (b : Byte), p.SizesOk → s.state = .awaitingLength →
    (b.toNat + 2 < p.minTotal ∨ p.maxTotalExcl ≤ b.toNat + 2 → ∃ t, execWith p (.pushByte b) s = .next t ∧
      t.state = .awaitingSync ∧ t.answer = some (.error (.invalidPacketLength b)) ∧
      t.cursor = s.cursor ∧ t.target = s.target ∧ t.buf = s.buf) ∧
    (p.minTotal ≤ b.toNat + 2 → b.toNat + 2 < p.maxTotalExcl → ∃ t, execWith p (.pushByte b) s = .next t ∧
      t.cursor = s.cursor + 1 ∧ t.buf = s.buf.store 1 b ∧ t.target.toNat = b.toNat + 1 ∧
      3 ≤ t.target.toNat ∧ t.target.toNat ≤ 62 ∧ t.state = .reading ∧ t.answer = some .incomplete)) ∧
  ∀ b : Byte, (params.minTotal ≤ b.toNat + 2 ∧ b.toNat + 2 < params.maxTotalExcl) ↔ 2 ≤ b.toNat ∧ b.toNat ≤ 61

/-- R191: `InvalidPacketLength` arises in AwaitingLength and for 196 byte values exactly, carries the byte as
received, and writes `frame_valid` and `state` only. -/
def Obligations.LengthErrorsAreExactlyTheLengthsOutsideTheRange : Prop :=
  (∀ (s t : State) (b x : Byte), exec (.pushByte b) s = .next t →
    (t.answer = some (.error (.invalidPacketLength x)) ↔
      x = b ∧ s.state = .awaitingLength ∧ ¬(4 ≤ b.toNat + 2 ∧ b.toNat + 2 < 64))) ∧
  (∀ (s : State) (b : Byte), s.state = .awaitingLength → ¬(4 ≤ b.toNat + 2 ∧ b.toNat + 2 < 64) →
    exec (.pushByte b) s = .next
      { s with frameValid := false, state := .awaitingSync, answer := some (.error (.invalidPacketLength b)) }) ∧
  (∀ b : Byte, ¬(4 ≤ b.toNat + 2 ∧ b.toNat + 2 < 64) ↔ b = 0 ∨ b = 1 ∨ 62 ≤ b.toNat) ∧
  ((List.range 256).filter fun n => ¬(4 ≤ n + 2 ∧ n + 2 < 64)).length = 196 ∧
  ∀ b : Byte, resultCode (.error (.invalidPacketLength b)) = 2

/-- R98: from any state of R31 the parser is in awaiting-sync within 62 pushes, whatever the bytes. -/
def Obligations.ParserReturnsToSyncWithinSixtyTwoPushes : Prop :=
  ∀ (p : Params) (s : State) (bs : List Byte), p.SizesOk → Inv p s → bs.length = 62 →
    ∃ k, k ≤ 62 ∧ (pushBytes p (bs.take k) s).1.state = .awaitingSync

/-- R98: pushed from awaiting-sync, the bytes of a Raw Frame are `Incomplete` until the last, which completes the
frame in `buf`. -/
def Obligations.RawFramePushedFromSyncCompletes : Prop :=
  ∀ (p : Params) (f : List Byte) (s : State), p.SizesOk → isRawFrame p f → s.state = .awaitingSync →
    (pushBytes p f s).2 = List.replicate (f.length - 1) .incomplete ++ [.complete f.length] ∧
    (pushBytes p f s).1.state = .awaitingSync ∧ (pushBytes p f s).1.frameValid = true ∧
    (pushBytes p f s).1.bufSlice 0 f.length = f

/-- R63, R26: what a PUSH_BYTE completes is a Raw Frame, held in `buf[0..len)`. -/
def Obligations.CompletedFramesAreRawFrames : Prop :=
  ∀ (p : Params) (s t : State) (b : Byte) (n : Nat), p.SizesOk → Inv p s → execWith p (.pushByte b) s = .next t →
    t.answer = some (.complete n) →
    4 ≤ n ∧ n ≤ 63 ∧ n = t.cursor.toNat + 1 ∧ t.frameValid = true ∧ isRawFrame p (t.bufSlice 0 n)

/-- R49 (b), R170: operations other than RESET issued between the bytes of a stream, wherever it is cut, change
neither the results of its pushes nor the registers they leave: a frame may be dispatched, decoded or encoded while
another is being received. -/
def Obligations.InterleavedOperationsDoNotDisturbTheParser : Prop :=
  ∀ (p : Params) (is : List Instr) (s : State), (∀ i ∈ is, i.wellFormed p = true ∧ i ≠ .reset) →
    (trace p is s).2.length = is.length ∧
    ((is.zip (trace p is s).2).filter fun x => (pushedByte x.1).isSome).map Prod.snd =
      (pushBytes p (is.filterMap pushedByte) s).2 ∧
    (trace p is s).1.state = (pushBytes p (is.filterMap pushedByte) s).1.state ∧
    (trace p is s).1.target = (pushBytes p (is.filterMap pushedByte) s).1.target ∧
    (trace p is s).1.cursor = (pushBytes p (is.filterMap pushedByte) s).1.cursor ∧
    (trace p is s).1.frameValid = (pushBytes p (is.filterMap pushedByte) s).1.frameValid ∧
    (trace p is s).1.buf = (pushBytes p (is.filterMap pushedByte) s).1.buf

/-! ### What an operation may write -/

/-- R20, R21, R43: no operation but RESET and PUSH_BYTE writes a register or the working buffer. That the four FRAME
rows are among these is the model's reading of them (log 7). -/
def Obligations.OnlyResetAndPushWriteTheRegisters : Prop :=
  ∀ (i : Instr) (s t : State), exec i s = .next t → i ≠ .reset → (∀ b, i ≠ .pushByte b) →
    t.state = s.state ∧ t.target = s.target ∧ t.cursor = s.cursor ∧ t.frameValid = s.frameValid ∧ t.buf = s.buf ∧
    t.epoch = s.epoch ∧ t.requests = s.requests

/-- R129, R171, R225: an operation changes exactly the output bytes it reports written, from index 0; where it
reports none, the output buffer is untouched. -/
def Obligations.OutputBytesAreExactlyTheReportedOnes : Prop :=
  ∀ (i : Instr) (s t : State), exec i s = .next t →
    (∀ n bytes, t.answer = some (.written n bytes) →
      n = bytes.length ∧ ∀ a, t.outRead a = if a < n then bytes[a]? else s.outRead a) ∧
    ((∀ n bytes, t.answer ≠ some (.written n bytes)) → ∀ a, t.outRead a = s.outRead a)

/-- R197 and the end of 93_implementation_defined.md part 1: every operation a host can present completes with a
result, in every build and in the default one. -/
def Obligations.PresentableOperationsComplete : Prop :=
  (∀ (p : Params) (i : Instr) (s : State), i.wellFormed p = true →
    ∃ t r, execWith p i s = .next t ∧ t.answer = some r) ∧
  ∀ (i : Instr) (s : State), i.wellFormed params = true → ∃ t r, exec i s = .next t ∧ t.answer = some r

/-- R131, R196: with the registry of the default build no operation returns `InvalidPayload`, `UnexpectedEof` or
`Io`. -/
def Obligations.SomeErrorKindsAreNeverReturned : Prop :=
  ∀ (i : Instr) (s t : State), exec i s = .next t →
    t.answer ≠ some (.error .invalidPayload) ∧ t.answer ≠ some (.error .unexpectedEof) ∧
    ∀ k, t.answer ≠ some (.error (.io k))

/-! ### CRC -/

/-- CRC8_DIGEST (R112) in every build: the fold of CRC8_UPDATE from CRC_INIT, no other effect, and the rule's corner
cases and example with CRC_INIT 0x00. The polynomial 0xD5 of the default build is the spec's general knowledge
(log 3), and that the op code is a command's first byte is the model's layout (log 6). -/
def Obligations.CrcDigestFoldsTheUpdate : Prop :=
  (∀ (p : Params) (bytes : List Byte) (s : State),
    execWith p (.crc8Digest bytes) s = .next
      { s with answer := some (.crc (bytes.foldl (fun c b => crc8Update p.crcPoly c b) p.crcInit)) }) ∧
  (∀ (bytes : List Byte) (s : State),
    exec (.crc8Digest bytes) s = .next { s with answer := some (.crc (crc8 0xD5 bytes)) }) ∧
  (∀ bytes : List Byte, ∃ operands, encode (.crc8Digest bytes) = .command (0x2 :: operands)) ∧
  (∀ (poly : Byte) (bytes : List Byte), crc8 poly (0 :: bytes) = crc8 poly bytes) ∧
  crc8 0xD5 [] = 0 ∧ crc8 0xD5 [0x01] = 0xD5 ∧ crc8 0xD5 [0x80] = 0xEF ∧ crc8 0xD5 [0xFF] = 0xF9 ∧
  crc8 0xD5 [0x14, 0x10, 0x13, 0x63, 0x97, 0x01, 0x02, 0x03, 0x08, 0x58, 0x94] = 0xFC

/-- R113: the bit-serial step is the table. -/
def Obligations.CrcTableIsTheBitSerialStep : Prop :=
  ∀ crc byte : Byte, crc8Update 0xD5 crc byte = crcTable.getD (crc ^^^ byte).toNat 0

/-- R114 (a) to (e), for every polynomial. -/
def Obligations.CrcAlgebraicLaws : Prop :=
  ∀ poly : Byte,
    crc8 poly [] = 0 ∧
    (∀ a b : List Byte, a.length = b.length →
      crc8 poly (List.zipWith (fun x y => x ^^^ y) a b) = crc8 poly a ^^^ crc8 poly b) ∧
    (∀ m, crc8 poly (0 :: m) = crc8 poly m) ∧
    (∀ m, crc8 poly (m ++ [crc8 poly m]) = 0) ∧
    (∀ a b, crc8 poly (a ++ b) = crc8From poly (crc8 poly a) b)

/-- R117: of all polynomials exactly three give the source's frame its CRC byte. -/
def Obligations.SourceFrameAdmitsThreePolynomials : Prop :=
  ∀ poly : Byte,
    crc8 poly [0x14, 0x10, 0x13, 0x63, 0x97, 0x01, 0x02, 0x03, 0x08, 0x58, 0x94] = 0xFC ↔
      poly = 0x1C ∨ poly = 0x66 ∨ poly = 0xD5

/-! ### The dispatcher and the link-statistics codec -/

/-- The pure function `dispatch` (R124) over a Raw Frame, in every legal build. A tag of the three codecs gives what
that codec's decode operation answers on the payload view. A tag of an extra codec gives the length rule of R121, its
fixed-size or variable-length form, then the codec's record, or `InvalidPayload` where its content check fails
(R131, R194); the form of its record is the model's (log 20). Any other tag is `NotImplemented`. -/
def Obligations.DispatchSelectsTheCodecByTag : Prop :=
  ∀ (p : Params) (f : List Byte) (tag : Byte) (payload : List Byte), p.Ok → isRawFrame p f → f[2]? = some tag →
    payload = (f.drop 3).take (f.length - 4) →
    (tag = p.tagLinkstat → ∀ s,
      execWith p (.linkstatDecode payload) s = .next { s with answer := some (dispatchFrame p f) }) ∧
    (tag = p.tagRc → ∀ s, execWith p (.rcDecode payload) s = .next { s with answer := some (dispatchFrame p f) }) ∧
    (tag = p.tagBaro → ∀ s,
      execWith p (.baroDecode payload) s = .next { s with answer := some (dispatchFrame p f) }) ∧
    (∀ c ∈ p.registryExtra, tag = c.tag →
      (payload.length < c.minPayload ∨
          (p.fixedLenExact = true ∧ c.fixedSize = true ∧ payload.length ≠ c.minPayload) →
        dispatchFrame p f = .error .invalidPayloadLength) ∧
      (c.minPayload ≤ payload.length →
        (p.fixedLenExact = true → c.fixedSize = true → payload.length = c.minPayload) →
        (∀ fields, c.decode (if c.fixedSize then payload.take c.minPayload else payload) = some fields →
          dispatchFrame p f = .packet (.record (.extra tag fields))) ∧
        (c.decode (if c.fixedSize then payload.take c.minPayload else payload) = none →
          dispatchFrame p f = .error .invalidPayload))) ∧
    (tag ∉ p.tags → dispatchFrame p f = .packet (.notImplemented tag payload.length))

/-- DISPATCH (R125): `Refused(NoFrame)` without a frame; with one, the pure `dispatch` of `buf[0..cursor+1)`;
nothing is written, so it may be repeated with the same result. -/
def Obligations.DispatchDecodesTheHeldFrame : Prop :=
  (∀ s : State,
    (s.frameValid = false → exec .dispatch s = .next { s with answer := some (.refused .noFrame) }) ∧
    (s.frameValid = true → 3 ≤ s.cursor.toNat →
      exec .dispatch s = .next { s with answer := some (dispatchFrame params (s.bufSlice 0 (s.cursor.toNat + 1))) })) ∧
  ∀ s t : State, exec .dispatch s = .next t → exec .dispatch t = .next t

/-- R121 through the three decode operations, with FIXED_LEN_EXACT and BARO_PAYLOAD open: which payload lengths they
reject, and that they decode the first MIN_PAYLOAD_SIZE bytes of the others. -/
def Obligations.DecodeLengthRule : Prop :=
  ∀ (p : Params) (payload : List Byte) (s : State),
    (payload.length < 10 ∨ (p.fixedLenExact = true ∧ payload.length ≠ 10) →
      execWith p (.linkstatDecode payload) s = .next { s with answer := some (.error .invalidPayloadLength) }) ∧
    (10 ≤ payload.length → (p.fixedLenExact = true → payload.length = 10) →
      execWith p (.linkstatDecode payload) s =
        .next { s with answer := some (.packet (.record (.linkStatistics (linkFieldsOf (payload.take 10))))) }) ∧
    (payload.length < 22 ∨ (p.fixedLenExact = true ∧ payload.length ≠ 22) →
      execWith p (.rcDecode payload) s = .next { s with answer := some (.error .invalidPayloadLength) }) ∧
    (22 ≤ payload.length → (p.fixedLenExact = true → payload.length = 22) →
      execWith p (.rcDecode payload) s =
        .next { s with answer := some (.packet (.record (.rcChannels (rcUnpack (payload.take 22))))) }) ∧
    (payload.length < p.baroPayload ∨ (p.fixedLenExact = true ∧ payload.length ≠ p.baroPayload) →
      execWith p (.baroDecode payload) s = .next { s with answer := some (.error .invalidPayloadLength) }) ∧
    (3 ≤ p.baroPayload → p.baroPayload ≤ payload.length →
      (p.fixedLenExact = true → payload.length = p.baroPayload) →
      execWith p (.baroDecode payload) s =
        .next { s with answer := some (.packet (.record (baroUnpack (payload.take p.baroPayload)))) })

/-- LINKSTAT_DECODE (R126) in the default build, which ignores bytes past the tenth. -/
def Obligations.LinkstatDecodeOperation : Prop :=
  ∀ (payload : List Byte) (s : State),
    (payload.length < 10 →
      exec (.linkstatDecode payload) s = .next { s with answer := some (.error .invalidPayloadLength) }) ∧
    (10 ≤ payload.length → ∃ f : LinkFields,
      exec (.linkstatDecode payload) s = .next { s with answer := some (.packet (.record (.linkStatistics f))) } ∧
      f.toList = payload.take 10)

/-- LINKSTAT_ENCODE (R127): the op code, the capacity check, and the ten bytes. That the op code is a command's first
byte is the model's layout (log 6), and that the record is ten unsigned bytes is the spec's decision D16 (log 28). -/
def Obligations.LinkstatEncodeOperation : Prop :=
  ∀ (f : LinkFields) (cap : Nat) (s : State),
    (∃ operands, encode (.linkstatEncode f cap) = .command (0xD :: operands)) ∧
    (cap < 10 → exec (.linkstatEncode f cap) s = .next { s with answer := some (.error .bufferOverflow) }) ∧
    (10 ≤ cap → exec (.linkstatEncode f cap) s = .next
      { s with answer := some (.written 10 f.toList), outBuffer := s.outBuffer.storeAll 0 f.toList })

/-- R128: LINKSTAT_DECODE and LINKSTAT_ENCODE undo each other, through the operations. -/
def Obligations.LinkstatRoundTrip : Prop :=
  (∀ (f : LinkFields) (cap : Nat) (s : State), 10 ≤ cap → ∃ t bytes u,
    exec (.linkstatEncode f cap) s = .next t ∧ t.answer = some (.written 10 bytes) ∧
    exec (.linkstatDecode bytes) t = .next u ∧ u.answer = some (.packet (.record (.linkStatistics f)))) ∧
  ∀ (payload : List Byte) (cap : Nat) (s : State), payload.length = 10 → 10 ≤ cap → ∃ t f u,
    exec (.linkstatDecode payload) s = .next t ∧ t.answer = some (.packet (.record (.linkStatistics f))) ∧
    exec (.linkstatEncode f cap) t = .next u ∧ u.answer = some (.written 10 payload)

/-! ### The channel codec -/

/-- RC_DECODE (R141, R142) in the default build: bit `j` of channel `i` is stream bit `11·i + j`, and stream bit
`k` is bit `k mod 8` of payload byte `k div 8`. -/
def Obligations.RcDecodeReadsTheBitStream : Prop :=
  ∀ (payload : List Byte) (s : State),
    (payload.length < 22 →
      exec (.rcDecode payload) s = .next { s with answer := some (.error .invalidPayloadLength) }) ∧
    (22 ≤ payload.length → ∃ ch : Channels,
      exec (.rcDecode payload) s = .next { s with answer := some (.packet (.record (.rcChannels ch))) } ∧
      ∀ i j, j < 11 → (h : i < 16) →
        ch[i].getLsbD j = (payload.getD ((11 * i + j) / 8) 0).getLsbD ((11 * i + j) % 8))

/-- RC_ENCODE (R141, R144): stream bit `k` is bit `k mod 11` of channel `k div 11`. -/
def Obligations.RcEncodeWritesTheBitStream : Prop :=
  ∀ (ch : Channels) (cap : Nat) (s : State),
    (cap < 22 → exec (.rcEncode ch cap) s = .next { s with answer := some (.error .bufferOverflow) }) ∧
    (22 ≤ cap → ∃ bytes : List Byte, bytes.length = 22 ∧
      exec (.rcEncode ch cap) s = .next
        { s with answer := some (.written 22 bytes), outBuffer := s.outBuffer.storeAll 0 bytes } ∧
      ∀ k, (h : k < 176) → (bytes.getD (k / 8) 0).getLsbD (k % 8) = (ch[k / 11]'(by omega)).getLsbD (k % 11))

/-- R146: RC_DECODE and RC_ENCODE undo each other, through the operations. -/
def Obligations.RcRoundTrip : Prop :=
  (∀ (ch : Channels) (cap : Nat) (s : State), 22 ≤ cap → ∃ t bytes u,
    exec (.rcEncode ch cap) s = .next t ∧ t.answer = some (.written 22 bytes) ∧ bytes.length = 22 ∧
    exec (.rcDecode bytes) t = .next u ∧ u.answer = some (.packet (.record (.rcChannels ch)))) ∧
  ∀ (payload : List Byte) (cap : Nat) (s : State), payload.length = 22 → 22 ≤ cap → ∃ t ch u,
    exec (.rcDecode payload) s = .next t ∧ t.answer = some (.packet (.record (.rcChannels ch))) ∧
    exec (.rcEncode ch cap) t = .next u ∧ u.answer = some (.written 22 payload)

/-! ### The altitude / vertical-speed codec -/

/-- BARO_DECODE (R152) in the default build. The three-byte layout is the spec's general knowledge (log 21), and that
longer payloads are accepted is the default of an open parameter (log 18). -/
def Obligations.BaroDecodeOperation : Prop :=
  ∀ (payload : List Byte) (s : State),
    (payload.length < 3 →
      exec (.baroDecode payload) s = .next { s with answer := some (.error .invalidPayloadLength) }) ∧
    (3 ≤ payload.length → ∃ (alt : BitVec 16) (vs : BitVec 8),
      exec (.baroDecode payload) s = .next { s with answer := some (.packet (.record (.baroAltitude alt vs))) } ∧
      alt.toNat = 256 * (payload.getD 0 0).toNat + (payload.getD 1 0).toNat ∧
      vs.toInt = if (payload.getD 2 0).toNat < 128 then ((payload.getD 2 0).toNat : Int)
        else (payload.getD 2 0).toNat - 256)

/-- BARO_ENCODE (R153): the op code, the capacity check, and the three bytes. A build with a longer BARO_PAYLOAD
writes that many bytes, of which these come first (log 30). The three-byte layout is the spec's general knowledge
(log 21), and that the op code is a command's first byte is the model's layout (log 6). -/
def Obligations.BaroEncodeOperation : Prop :=
  (∀ (alt : BitVec 16) (vs : BitVec 8) (cap : Nat) (s : State),
    (∃ operands, encode (.baroEncode alt vs cap) = .command (0x7 :: operands)) ∧
    (cap < 3 → exec (.baroEncode alt vs cap) s = .next { s with answer := some (.error .bufferOverflow) }) ∧
    (3 ≤ cap → ∃ hi lo : Byte, hi.toNat = alt.toNat / 256 ∧ lo.toNat = alt.toNat % 256 ∧
      exec (.baroEncode alt vs cap) s = .next
        { s with answer := some (.written 3 [hi, lo, vs]), outBuffer := s.outBuffer.storeAll 0 [hi, lo, vs] })) ∧
  ∀ (p : Params) (alt : BitVec 16) (vs : BitVec 8) (cap : Nat) (s : State), 3 ≤ p.baroPayload →
    (cap < p.baroPayload →
      execWith p (.baroEncode alt vs cap) s = .next { s with answer := some (.error .bufferOverflow) }) ∧
    (p.baroPayload ≤ cap → ∃ (hi lo : Byte) (rest : List Byte), hi.toNat = alt.toNat / 256 ∧
      lo.toNat = alt.toNat % 256 ∧ rest.length = p.baroPayload - 3 ∧
      execWith p (.baroEncode alt vs cap) s = .next
        { s with answer := some (.written p.baroPayload (hi :: lo :: vs :: rest)),
                 outBuffer := s.outBuffer.storeAll 0 (hi :: lo :: vs :: rest) })

/-- R156: BARO_DECODE and BARO_ENCODE undo each other, through the operations. -/
def Obligations.BaroRoundTrip : Prop :=
  (∀ (alt : BitVec 16) (vs : BitVec 8) (cap : Nat) (s : State), 3 ≤ cap → ∃ t bytes u,
    exec (.baroEncode alt vs cap) s = .next t ∧ t.answer = some (.written 3 bytes) ∧
    exec (.baroDecode bytes) t = .next u ∧ u.answer = some (.packet (.record (.baroAltitude alt vs)))) ∧
  ∀ (payload : List Byte) (cap : Nat) (s : State), payload.length = 3 → 3 ≤ cap → ∃ t alt vs u,
    exec (.baroDecode payload) s = .next t ∧ t.answer = some (.packet (.record (.baroAltitude alt vs))) ∧
    exec (.baroEncode alt vs cap) t = .next u ∧ u.answer = some (.written 3 payload)

/-- ALT_UNPACK (R154): metres times ten where bit 15 is set, decimetres with the offset where it is clear. In every
build with an offset of 32 bits, and in the default one, whose offset is 10000. That the unit is decimetres in both
modes is the spec's decision (log 16). -/
def Obligations.AltUnpackOperation : Prop :=
  (∀ (p : Params) (packed : BitVec 16) (s : State), p.altOffsetDm ≤ 2 ^ 31 → ∃ v : BitVec 32,
    execWith p (.altUnpack packed) s = .next { s with answer := some (.altitudeDm v) } ∧
    (packed.toNat < 0x8000 → v.toInt = packed.toNat - p.altOffsetDm) ∧
    (0x8000 ≤ packed.toNat → v.toInt = 10 * (packed.toNat - 0x8000))) ∧
  ∀ (packed : BitVec 16) (s : State), ∃ v : BitVec 32,
    exec (.altUnpack packed) s = .next { s with answer := some (.altitudeDm v) } ∧
    (packed.toNat < 0x8000 → v.toInt = packed.toNat - 10000) ∧
    (0x8000 ≤ packed.toNat → v.toInt = 10 * (packed.toNat - 0x8000))

/-- ALT_PACK (R155). In every build whose offset and largest metre count fit 15 bits, and in the default one. The
metre rounding is half up by the spec's decision (log 16). -/
def Obligations.AltPackOperation : Prop :=
  (∀ (p : Params) (d : BitVec 32) (s : State), p.altOffsetDm ≤ 0x7FFF → p.altMaxM ≤ 0x7FFF → ∃ v : BitVec 16,
    execWith p (.altPack d) s = .next { s with answer := some (.altitudePacked v) } ∧
    (d.toInt < -p.altOffsetDm → v.toNat = 0) ∧
    (-p.altOffsetDm ≤ d.toInt → d.toInt < 0x8000 - p.altOffsetDm → (v.toNat : Int) = d.toInt + p.altOffsetDm) ∧
    (0x8000 - p.altOffsetDm ≤ d.toInt → (v.toNat : Int) = 0x8000 + min ((d.toInt + 5) / 10) p.altMaxM)) ∧
  ∀ (d : BitVec 32) (s : State), ∃ v : BitVec 16,
    exec (.altPack d) s = .next { s with answer := some (.altitudePacked v) } ∧
    (d.toInt < -10000 → v.toNat = 0) ∧
    (-10000 ≤ d.toInt → d.toInt < 22768 → (v.toNat : Int) = d.toInt + 10000) ∧
    (22768 ≤ d.toInt → (v.toNat : Int) = 0x8000 + min ((d.toInt + 5) / 10) 0x7FFE)

/-- R157 (a) to (e) and the source's vectors. That metres are rounded half up, and that the unit is decimetres in
both modes, are the spec's decisions (log 16). -/
def Obligations.AltitudeRoundTripProperties : Prop :=
  (∀ d : Int, -10000 ≤ d → d ≤ 22767 → altUnpackDm params (altPackField params d) = d) ∧
  (∀ d : Int, 22768 ≤ d → d ≤ 327655 →
    altUnpackDm params (altPackField params d) = 10 * ((d + 5) / 10) ∧
    |altUnpackDm params (altPackField params d) - d| ≤ 5) ∧
  (∀ d : Int, d < -10000 → altUnpackDm params (altPackField params d) = -10000) ∧
  (∀ d : Int, 327655 < d → altUnpackDm params (altPackField params d) = 327660) ∧
  (∀ f : BitVec 16, altPackField params (altUnpackDm params f) = f ↔
    f.toNat ≤ 0x7FFF ∨ (0x88E5 ≤ f.toNat ∧ f.toNat ≤ 0xFFFE)) ∧
  (∀ d e : Int, d ≤ e → altUnpackDm params (altPackField params d) ≤ altUnpackDm params (altPackField params e)) ∧
  altPackField params (-10000) = 0 ∧ altPackField params 22766 = 32766 ∧ altPackField params 22767 = 0x7FFF

/-- VS_UNPACK (R160), against the real formula with K_L = 100 and K_R = 0.026: truncated or nearest, times the sign.
The operation answers what its build's VS_UNPACK_ROUND selects; the default build truncates (log 19). -/
def Obligations.VsUnpackMatchesTheFormula : Prop :=
  (∀ q : BitVec 8,
    vsUnpackValue sourceVsTables .trunc q.toInt =
      q.toInt.sign * ⌊100 * (Real.exp ((q.toInt.natAbs : ℝ) * (26 / 1000)) - 1)⌋ ∧
    vsUnpackValue sourceVsTables .nearest q.toInt =
      q.toInt.sign * round (100 * (Real.exp ((q.toInt.natAbs : ℝ) * (26 / 1000)) - 1))) ∧
  (∀ (p : Params) (q : BitVec 8) (s : State), p.vsTables = sourceVsTables → ∃ v : BitVec 16,
    execWith p (.vsUnpack q) s = .next { s with answer := some (.speed v) } ∧
    v.toInt = vsUnpackValue sourceVsTables p.vsUnpackRound q.toInt) ∧
  ∀ (q : BitVec 8) (s : State), ∃ v : BitVec 16,
    exec (.vsUnpack q) s = .next { s with answer := some (.speed v) } ∧
    v.toInt = vsUnpackValue sourceVsTables .trunc q.toInt

/-- VS_PACK (R158), against the real formula with K_L = 100 and K_R = 0.026: the nearest integer to
ln(|v|/100 + 1) / 0.026, times the sign, saturated to the field, in every build with their tables and in the default
one. The saturation is the spec's own (log 15). -/
def Obligations.VsPackMatchesTheFormula : Prop :=
  (∀ (p : Params) (v : BitVec 16) (s : State), p.vsTables = sourceVsTables → ∃ r : BitVec 8,
    execWith p (.vsPack v) s = .next { s with answer := some (.vspeedPacked r) } ∧
    r.toInt = max (-128) (min 127
      (v.toInt.sign * round (Real.log ((v.toInt.natAbs : ℝ) / 100 + 1) / (26 / 1000))))) ∧
  ∀ (v : BitVec 16) (s : State), ∃ r : BitVec 8,
    exec (.vsPack v) s = .next { s with answer := some (.vspeedPacked r) } ∧
    r.toInt = max (-128) (min 127
      (v.toInt.sign * round (Real.log ((v.toInt.natAbs : ℝ) / 100 + 1) / (26 / 1000))))

/-- R162 (a): packing what was unpacked gives the field back, under either rounding. -/
def Obligations.VsPackUndoesVsUnpack : Prop :=
  ∀ (r : Rounding) (q : BitVec 8),
    vsPackValue sourceVsTables (vsUnpackValue sourceVsTables r q.toInt) = q.toInt

/-- R158, R159: VS_PACK is odd where nothing saturates, never falls as the speed rises, and its threshold table
lists the smallest magnitude of each index. That it saturates above its range is the spec's own (log 15). -/
def Obligations.VsPackIsOddAndMonotone : Prop :=
  (∀ v : Int, |v| ≤ 2652 → vsPackValue sourceVsTables (-v) = -vsPackValue sourceVsTables v) ∧
  (∀ v w : Int, v ≤ w → vsPackValue sourceVsTables v ≤ vsPackValue sourceVsTables w) ∧
  ∀ q m : Nat, q ≤ 128 → (q ≤ vsPackIndex sourceVsTables m ↔ vsPackThresholds.getD q 0 ≤ m)

/-! ### The frame encoder -/

/-- ENCODE_FRAME (R171) of the three records of the default registry, with the capacity boundaries of its corner
case (a). -/
def Obligations.EncodeFrameOperation : Prop :=
  ∀ (d : Byte) (cap : Nat) (s : State), d ∈ params.addrSet →
    ∀ (r : Record) (tag : Byte) (payload : List Byte),
      ((∃ f : LinkFields, r = .linkStatistics f ∧ tag = 0x14 ∧ payload = f.toList) ∨
       (∃ ch, r = .rcChannels ch ∧ tag = 0x16 ∧ payload = rcPack ch) ∨
       (∃ alt vs, r = .baroAltitude alt vs ∧ tag = 0x09 ∧ payload = baroFields alt vs)) →
      (cap < payload.length + 4 →
        exec (.encodeFrame d r cap) s = .next { s with answer := some (.error .bufferOverflow) }) ∧
      (payload.length + 4 ≤ cap → ∃ bytes,
        bytes = [d, BitVec.ofNat 8 (payload.length + 2), tag] ++ payload ++ [crc8 0xD5 (tag :: payload)] ∧
        exec (.encodeFrame d r cap) s = .next
          { s with answer := some (.written (payload.length + 4) bytes),
                   outBuffer := s.outBuffer.storeAll 0 bytes }) ∧
      (payload.length = match r with
        | .linkStatistics _ => 10
        | .rcChannels _ => 22
        | .baroAltitude _ _ => 3
        | .extra _ _ => payload.length)

/-- R173 (a), (c): what ENCODE_FRAME writes is a Raw Frame addressed to the destination, at most ENC_SCRATCH + 4
bytes (62 where it is 58), and the same whatever the capacity, for every codec of the registry. -/
def Obligations.EncodedFramesAreRawFrames : Prop :=
  ∀ (p : Params) (d : Byte) (r : Record) (cap n : Nat) (s t : State) (bytes : List Byte), p.SizesOk →
    execWith p (.encodeFrame d r cap) s = .next t → t.answer = some (.written n bytes) →
    (p.minTotal ≤ n → isRawFrame p bytes) ∧ bytes.length = n ∧ 4 ≤ n ∧ n ≤ p.encScratch + 4 ∧
    (p.encScratch = 58 → n ≤ 62) ∧ n ≤ cap ∧ frameAddress bytes = d ∧
    ∀ (cap' : Nat) (s' : State), n ≤ cap' →
      execWith p (.encodeFrame d r cap') s' = .next
        { s' with answer := some (.written n bytes), outBuffer := s'.outBuffer.storeAll 0 bytes }

/-- U15, R171: a destination outside ADDR_SET, or a record whose variant has no codec, is refused by name. -/
def Obligations.EncodeFrameRefusesItsNonOperands : Prop :=
  ∀ (p : Params) (d : Byte) (r : Record) (cap : Nat) (s : State),
    (d ∉ p.addrSet → execWith p (.encodeFrame d r cap) s = .refused (.destinationNotAddress d)) ∧
    (d ∈ p.addrSet → r.registered p = false →
      execWith p (.encodeFrame d r cap) s = .refused (.recordNotRegistered r))

/-- R101: encode, push from awaiting-sync, dispatch gives the record back, in every legal build; for a record of an
extra codec, where that codec decodes what it encoded from this record. -/
def Obligations.EncodePushDispatchRoundTrip : Prop :=
  ∀ (p : Params) (d : Byte) (r : Record) (cap n : Nat) (s t u : State) (bytes : List Byte), p.Ok →
    (∀ c ∈ p.registryExtra, ∀ fields, r = .extra c.tag fields → c.minPayload ≤ (c.encode fields).length ∧
      (c.fixedSize = true → (c.encode fields).length = c.minPayload) ∧ c.decode (c.encode fields) = some fields) →
    execWith p (.encodeFrame d r cap) s = .next t → t.answer = some (.written n bytes) →
    p.minTotal ≤ n → u.state = .awaitingSync →
    (pushBytes p bytes u).2 = List.replicate (n - 1) .incomplete ++ [.complete n] ∧
    execWith p .dispatch (pushBytes p bytes u).1 =
      .next { (pushBytes p bytes u).1 with answer := some (.packet (.record r)) }

/-! ### The packet sequence -/

/-- R183: two frames between garbage outside ADDR_SET give exactly their two packets, among the errors of the
garbage. That the sequence starts fresh is the spec's reading (log 29). -/
def Obligations.TwoFramesAmongGarbageAreBothDecoded : Prop :=
  ∀ (p : Params) (f1 f2 g1 g2 g3 : List Byte) (r1 r2 : Packet), p.SizesOk → isRawFrame p f1 → isRawFrame p f2 →
    dispatchFrame p f1 = .packet r1 → dispatchFrame p f2 = .packet r2 →
    (∀ b ∈ g1 ++ g2 ++ g3, b ∉ p.addrSet) →
    parseBuffer p (g1 ++ f1 ++ g2 ++ f2 ++ g3) =
      g1.map (fun b => .error (.invalidSync b)) ++ [.packet r1] ++
      g2.map (fun b => .error (.invalidSync b)) ++ [.packet r2] ++ g3.map (fun b => .error (.invalidSync b))

/-- R184: a frame with its last byte changed gives one `InvalidCrc` and no packet. -/
def Obligations.CorruptedCrcGivesOneError : Prop :=
  ∀ (p : Params) (f : List Byte) (x : Byte), p.SizesOk → isRawFrame p f → x ≠ frameCrc f →
    parseBuffer p (f.dropLast ++ [x]) = [.error (.invalidCrc (frameCrc f) x)]

/-- R181: the sequence of a prefix is a prefix of the sequence, there are no more elements than bytes, and as many
as there are pushes whose result is not `Incomplete`. -/
def Obligations.PacketSequenceIsLazyAndFinite : Prop :=
  ∀ (p : Params) (xs ys : List Byte), p.SizesOk →
    (∃ zs, parseBuffer p (xs ++ ys) = parseBuffer p xs ++ zs) ∧
    (parseBuffer p xs).length ≤ xs.length ∧
    (parseBuffer p xs).length = ((pushBytes p xs State.reset).2.filter (fun r => r ≠ .incomplete)).length

/-! ### The wire-tag rows and the reserved code -/

/-- The rows FRAME.LINKSTAT, FRAME.RC_CHANNELS, FRAME.BARO_ALT and FRAME.NOT_IMPLEMENTED (R76, R124) in the default
build: `dispatch` of the frame, and nothing else written. That a row is the pure function is the model's reading
(log 7), that longer payloads are accepted is the default of an open parameter (log 18), and the tags 0x16 and 0x09
are general knowledge (log 4). On operands that form no Raw Frame the row does the same by the model's choice
(log 32). -/
def Obligations.WireTagRowsDispatchTheirFrame : Prop :=
  ∀ (a : Byte) (payload : List Byte) (s : State),
    exec (.frameLinkstat a payload) s = .next
      { s with answer := some (if payload.length < 10 then .error .invalidPayloadLength
                 else .packet (.record (.linkStatistics (linkFieldsOf payload)))) } ∧
    exec (.frameRcChannels a payload) s = .next
      { s with answer := some (if payload.length < 22 then .error .invalidPayloadLength
                 else .packet (.record (.rcChannels (rcUnpack payload)))) } ∧
    exec (.frameBaroAlt a payload) s = .next
      { s with answer := some (if payload.length < 3 then .error .invalidPayloadLength
                 else .packet (.record (baroUnpack payload))) } ∧
    ∀ tag, tag ≠ 0x14 → tag ≠ 0x16 → tag ≠ 0x09 →
      exec (.frameNotImplemented a tag payload) s = .next
        { s with answer := some (.packet (.notImplemented tag payload.length)) }

/-- R75, R198: the reserved op code answers `Refused(IllegalOp)` and changes no state. -/
def Obligations.ReservedCodeIsRefusedWithoutEffect : Prop :=
  ∀ s : State, exec .reserved0xF s = .next { s with answer := some (.refused .illegalOp) }

/-- R199, R197: the result code of every result, one for each error kind, and the side outputs `len`, `byte`,
`calculated` and `received`. The numbers are the spec's own (D2). -/
def Obligations.ResultCodesFollowR199 : Prop :=
  ∀ r : Result,
    (resultCode r = 0 ↔ (∀ k, r ≠ .error k) ∧ (∀ n, r ≠ .complete n) ∧ ∀ x, r ≠ .refused x) ∧
    (resultCode r = 1 ↔ ∃ b, r = .error (.invalidSync b)) ∧
    (resultCode r = 2 ↔ ∃ b, r = .error (.invalidPacketLength b)) ∧
    (resultCode r = 3 ↔ ∃ c x, r = .error (.invalidCrc c x)) ∧
    (resultCode r = 4 ↔ r = .error .invalidPayloadLength) ∧
    (resultCode r = 5 ↔ r = .error .invalidPayload) ∧
    (resultCode r = 6 ↔ r = .error .bufferOverflow) ∧
    (resultCode r = 7 ↔ r = .error .unexpectedEof) ∧
    (resultCode r = 8 ↔ ∃ k, r = .error (.io k)) ∧
    (resultCode r = 9 ↔ ∃ n, r = .complete n) ∧ (resultCode r = 14 ↔ r = .refused .noFrame) ∧
    (resultCode r = 15 ↔ r = .refused .illegalOp) ∧
    ¬(10 ≤ (resultCode r).toNat ∧ (resultCode r).toNat ≤ 13) ∧
    (∀ len, resultLen r = some len ↔ ∃ n, r = .complete n ∧ len = BitVec.ofNat 6 n) ∧
    (∀ b, resultByte r = some b ↔ r = .error (.invalidSync b) ∨ r = .error (.invalidPacketLength b)) ∧
    ∀ c x, resultCrcs r = some (c, x) ↔ r = .error (.invalidCrc c x)

/-! ### Encoding and the step -/

/-- Decode of encode is the instruction, for every instruction a host can present, in every legal build. How a
command's operands lie in bytes is the model's choice (log 6). -/
def Obligations.DecodeOfEncodeIsTheInstruction : Prop :=
  ∀ (p : Params) (i : Instr), p.Ok → i.wellFormed p = true → decodeWith p (encodeWith p i) = .ok i

/-- What the decoder accepts is presentable and has that encoding only. How a command's operands lie in bytes is the
model's choice (log 6). -/
def Obligations.AcceptedRequestsAreTheirEncoding : Prop :=
  ∀ (p : Params) (r : Request) (i : Instr), p.SizesOk → decodeWith p r = .ok i →
    i.wellFormed p = true ∧ encodeWith p i = r

/-- R73, R61: a few words written out from the spec's tables. The order of operand bytes in a command is the model's
choice (log 6); the frames' CRC bytes (log 3) and the tag 0x09 (log 4) are general knowledge. -/
def Obligations.WordsDecodeAsTheTablesSay : Prop :=
  decode (.command [0x01, 0xC8]) = .ok (.pushByte 0xC8) ∧
  decode (.command [0x09, 0xFF, 0xFF, 0xFF, 0x06]) = .ok (.altPack (-250)) ∧
  decode (.command [0x0B, 0xF6, 0x3C]) = .ok (.vsPack (-2500)) ∧
  decode (.command [0x07, 0x26, 0x16, 0x83, 0x03]) = .ok (.baroEncode 0x2616 (-125) 3) ∧
  decode (.frame [0xC8, 0x05, 0x09, 0x27, 0x10, 0x00, 0xB3]) = .ok (.frameBaroAlt 0xC8 [0x27, 0x10, 0x00]) ∧
  decode (.frame [0xC8, 0x02, 0x3A, 0xA0]) = .ok (.frameNotImplemented 0xC8 0x3A [])

/-- A step takes the oldest request and runs the operation its bytes decode to (R46); with none issued the block
waits unchanged (R100); bytes that stand for no operation are refused by name. -/
def Obligations.StepRunsTheDecodedOperation : Prop :=
  ∀ s : State,
    (s.requests = [] → step s = .next s) ∧
    ∀ r rest, s.requests = r :: rest →
      (∀ i, decode r = .ok i → step s = exec i { s with requests := rest }) ∧
      (∀ e, decode r = .error e → step s = .refused (.illFormedRequest e))

/-- R28: `exec` and `step` are the machine with its parameters as an argument, at the default build. -/
def Obligations.ExecAndStepAreTheDefaultBuild : Prop :=
  (∀ i s, exec i s = execWith params i s) ∧ ∀ s, step s = stepWith params s
end

