-- ==== Sys2Proof/Laws/Operands.lean ====
section
/-! SUPPORT. One lemma for each operand reader: what it answers on what the writer wrote, and back. -/

namespace Sys2Proof.Machine

@[simp] theorem length_beBytes (n v : Nat) : (beBytes n v).length = n := by
  induction n with
  | zero => rfl
  | succ n ih => simp [beBytes, ih]

theorem beNat_append (xs : List Byte) (b : Byte) : beNat (xs ++ [b]) = beNat xs * 256 + b.toNat := by
  simp [beNat]

theorem foldl_beNat (xs : List Byte) (acc : Nat) :
    xs.foldl (fun acc b => acc * 256 + b.toNat) acc = acc * 256 ^ xs.length + beNat xs := by
  induction xs generalizing acc with
  | nil => simp [beNat]
  | cons x xs ih =>
    have h0 : beNat (x :: xs) = x.toNat * 256 ^ xs.length + beNat xs := by
      rw [beNat, List.foldl_cons, ih, Nat.zero_mul, Nat.zero_add]
    rw [List.foldl_cons, ih, h0, List.length_cons, pow_succ]
    ring

theorem beNat_cons (b : Byte) (xs : List Byte) : beNat (b :: xs) = b.toNat * 256 ^ xs.length + beNat xs := by
  rw [beNat, List.foldl_cons, foldl_beNat]; ring

/-- Big-endian bytes read back as the value they were written from. -/
theorem beNat_beBytes (n v : Nat) : beNat (beBytes n v) = v % 256 ^ n := by
  induction n with
  | zero => simp [beBytes, beNat, Nat.mod_one]
  | succ n ih =>
    have e : v % 256 ^ (n + 1) = v % 256 ^ n + 256 ^ n * (v / 256 ^ n % 256) := by
      rw [pow_succ, Nat.mod_mul (x := v) (a := 256 ^ n) (b := 256)]
    rw [beBytes, beNat_cons, ih, length_beBytes, BitVec.toNat_ofNat, e, Nat.mul_comm, Nat.add_comm]

theorem beNat_lt (xs : List Byte) : beNat xs < 256 ^ xs.length := by
  induction xs with
  | nil => simp [beNat]
  | cons x xs ih =>
    rw [beNat_cons, List.length_cons, pow_succ]
    have := x.isLt
    nlinarith [Nat.pos_of_ne_zero (pow_ne_zero xs.length (by decide : (256 : Nat) ≠ 0))]

/-- Bytes are the big-endian bytes of their value. -/
theorem beBytes_beNat (xs : List Byte) : beBytes xs.length (beNat xs) = xs := by
  induction xs with
  | nil => rfl
  | cons x xs ih =>
    have h := beNat_lt xs
    have hx := x.isLt
    have key : ∀ n k, beBytes n (k * 256 ^ n + beNat xs) = beBytes n (beNat xs) := by
      intro n
      induction n with
      | zero => intro k; rfl
      | succ n ihn =>
        intro k
        rw [beBytes, beBytes, pow_succ, show k * (256 ^ n * 256) = (k * 256) * 256 ^ n by ring, ihn]
        congr 1
        rw [Nat.add_comm, Nat.add_mul_div_right _ _ (by positivity)]
        apply BitVec.eq_of_toNat_eq
        simp [Nat.add_mod]
    rw [List.length_cons, beBytes, beNat_cons, key, ih]
    congr 1
    apply BitVec.eq_of_toNat_eq
    rw [BitVec.toNat_ofNat, Nat.add_comm, Nat.add_mul_div_right _ _ (by positivity), Nat.div_eq_of_lt h]
    omega

/-- `takeBytes` reads back exactly the bytes written. -/
@[simp] theorem takeBytes_append (xs rest : List Byte) : takeBytes xs.length (xs ++ rest) = .ok (xs, rest) := by
  simp [takeBytes]

theorem takeBytes_append_of_length {n : Nat} {xs : List Byte} (h : xs.length = n) (rest : List Byte) :
    takeBytes n (xs ++ rest) = .ok (xs, rest) := by
  subst h; simp

/-- What `takeBytes` can answer. -/
theorem takeBytes_ok {n : Nat} {bs xs rest : List Byte} (h : takeBytes n bs = .ok (xs, rest)) :
    bs = xs ++ rest ∧ xs.length = n := by
  unfold takeBytes at h
  split at h
  · simp only [Except.ok.injEq, Prod.mk.injEq] at h
    obtain ⟨rfl, rfl⟩ := h
    simp; omega
  · cases h

/-- A number reads back from its shortest form. -/
theorem takeNat_natBytesUpTo (k n : Nat) (h : n ≤ k) (rest : List Byte) :
    takeNat (natBytesUpTo k n ++ rest) = .ok (n, rest) := by
  induction k generalizing n with
  | zero => obtain rfl : n = 0 := by omega
            simp [natBytesUpTo, takeNat]
  | succ k ih =>
    rw [natBytesUpTo]
    split
    next hlt => simp [takeNat, Nat.mod_eq_of_lt (show n < 256 by omega), hlt]
    next hge =>
      have hq : n / 128 ≠ 0 := by omega
      have hm : (n % 128 + 128) % 256 = n % 128 + 128 := by omega
      rw [List.cons_append, takeNat, ih (n / 128) (by omega)]
      simp only [BitVec.toNat_ofNat, Nat.reducePow, hm, hq, if_false]
      rw [if_neg (by omega)]
      congr 2
      omega

@[simp] theorem takeNat_natBytes (n : Nat) (rest : List Byte) : takeNat (natBytes n ++ rest) = .ok (n, rest) :=
  takeNat_natBytesUpTo n n le_rfl rest

@[simp] theorem takeNat_natBytes_end (n : Nat) : takeNat (natBytes n) = .ok (n, []) := by
  simpa using takeNat_natBytes n []

/-- The shortest form does not depend on the bound it is computed with. -/
theorem natBytesUpTo_bound (k n : Nat) (h : n ≤ k) : natBytesUpTo k n = natBytes n := by
  induction k using Nat.strong_induction_on generalizing n with
  | _ k ih =>
    cases k with
    | zero => obtain rfl : n = 0 := by omega
              rfl
    | succ k =>
      cases n with
      | zero => rfl
      | succ n =>
        rw [natBytes, natBytesUpTo, natBytesUpTo]
        split
        · rfl
        · rw [ih k (by omega) ((n + 1) / 128) (by omega)]
          by_cases hn : n = k
          · subst hn; rw [ih n (by omega) ((n + 1) / 128) (by omega)]
          · rw [ih n (by omega) ((n + 1) / 128) (by omega)]

/-- What `takeNat` can answer: the bytes were the shortest form of the number. -/
theorem takeNat_ok {bs rest : List Byte} {n : Nat} (h : takeNat bs = .ok (n, rest)) : bs = natBytes n ++ rest := by
  induction bs generalizing n with
  | nil => cases h
  | cons b bs ih =>
    have hb := b.isLt
    rw [takeNat] at h
    split at h
    next hlt =>
      simp only [Except.ok.injEq, Prod.mk.injEq] at h
      obtain ⟨rfl, rfl⟩ := h
      rw [natBytes]
      cases hb' : b.toNat with
      | zero =>
        obtain rfl : b = 0#8 := BitVec.eq_of_toNat_eq hb'
        rfl
      | succ m =>
        have e : natBytesUpTo (m + 1) (m + 1) = [BitVec.ofNat 8 (m + 1)] := by
          rw [natBytesUpTo, if_pos (by omega)]
        rw [e, ← hb']; simp
    next hge =>
      split at h
      · cases h
      next m rest' hm =>
        split at h
        · cases h
        next hm0 =>
          simp only [Except.ok.injEq, Prod.mk.injEq] at h
          obtain ⟨rfl, rfl⟩ := h
          obtain ⟨q, hq⟩ : ∃ q, b.toNat - 128 + 128 * m = q + 1 := ⟨b.toNat - 128 + 128 * m - 1, by omega⟩
          have e : natBytes (b.toNat - 128 + 128 * m) =
              BitVec.ofNat 8 ((b.toNat - 128 + 128 * m) % 128 + 128) :: natBytes m := by
            rw [hq, natBytes, natBytesUpTo, if_neg (by omega), natBytesUpTo_bound q ((q + 1) / 128) (by omega),
              ← hq, show (b.toNat - 128 + 128 * m) / 128 = m by omega]
          rw [ih hm, e, List.cons_append]
          congr 1
          apply BitVec.eq_of_toNat_eq
          simp; omega

@[simp] theorem takeCounted_countedBytes (xs rest : List Byte) :
    takeCounted (countedBytes xs ++ rest) = .ok (xs, rest) := by
  simp [takeCounted, countedBytes]

@[simp] theorem takeCounted_countedBytes_end (xs : List Byte) : takeCounted (countedBytes xs) = .ok (xs, []) := by
  simpa using takeCounted_countedBytes xs []

/-- What `takeCounted` can answer. -/
theorem takeCounted_ok {bs xs rest : List Byte} (h : takeCounted bs = .ok (xs, rest)) :
    bs = countedBytes xs ++ rest := by
  unfold takeCounted at h
  split at h
  · cases h
  next n r hn =>
    obtain ⟨hr, rfl⟩ := takeBytes_ok h
    rw [takeNat_ok hn, hr, countedBytes, List.append_assoc]

/-- `sext_8` and `to_u8` are inverse readings of a byte (00_scope.md R8). -/
theorem sext8_eq_toInt (b : Byte) : sext8 b = b.toInt := by
  have h := b.isLt
  rw [sext8, BitVec.toInt_eq_toNat_cond]
  split <;> split <;> first | rfl | omega

@[simp] theorem ofInt_sext8 (b : Byte) : BitVec.ofInt 8 (sext8 b) = b := by
  rw [sext8_eq_toInt, BitVec.ofInt_toInt]

@[simp] theorem toU8_toInt (b : Byte) : toU8 b.toInt = b := by
  revert b; decide

end Sys2Proof.Machine
end

