-- ==== Sys2Proof/Laws/State.lean ====
section
/-! SUPPORT. One lemma for each field of State and each update of it, true by rfl. -/

namespace Sys2Proof.Machine.State

variable (s : State)

@[simp] theorem invalidateFrame_state : s.invalidateFrame.state = s.state := rfl
@[simp] theorem invalidateFrame_target : s.invalidateFrame.target = s.target := rfl
@[simp] theorem invalidateFrame_cursor : s.invalidateFrame.cursor = s.cursor := rfl
@[simp] theorem invalidateFrame_frameValid : s.invalidateFrame.frameValid = false := rfl
@[simp] theorem invalidateFrame_buf : s.invalidateFrame.buf = s.buf := rfl
@[simp] theorem invalidateFrame_outBuffer : s.invalidateFrame.outBuffer = s.outBuffer := rfl
@[simp] theorem invalidateFrame_answer : s.invalidateFrame.answer = s.answer := rfl
@[simp] theorem invalidateFrame_requests : s.invalidateFrame.requests = s.requests := rfl
@[simp] theorem invalidateFrame_epoch : s.invalidateFrame.epoch = s.epoch := rfl

@[simp] theorem validateFrame_state : s.validateFrame.state = s.state := rfl
@[simp] theorem validateFrame_target : s.validateFrame.target = s.target := rfl
@[simp] theorem validateFrame_cursor : s.validateFrame.cursor = s.cursor := rfl
@[simp] theorem validateFrame_frameValid : s.validateFrame.frameValid = true := rfl
@[simp] theorem validateFrame_buf : s.validateFrame.buf = s.buf := rfl
@[simp] theorem validateFrame_outBuffer : s.validateFrame.outBuffer = s.outBuffer := rfl
@[simp] theorem validateFrame_answer : s.validateFrame.answer = s.answer := rfl
@[simp] theorem validateFrame_requests : s.validateFrame.requests = s.requests := rfl
@[simp] theorem validateFrame_epoch : s.validateFrame.epoch = s.epoch := rfl

@[simp] theorem bufWrite_state (i : BitVec 6) (b : Byte) : (s.bufWrite i b).state = s.state := rfl
@[simp] theorem bufWrite_target (i : BitVec 6) (b : Byte) : (s.bufWrite i b).target = s.target := rfl
@[simp] theorem bufWrite_cursor (i : BitVec 6) (b : Byte) : (s.bufWrite i b).cursor = s.cursor := rfl
@[simp] theorem bufWrite_frameValid (i : BitVec 6) (b : Byte) : (s.bufWrite i b).frameValid = s.frameValid := rfl
@[simp] theorem bufWrite_buf (i : BitVec 6) (b : Byte) : (s.bufWrite i b).buf = s.buf.store i.toNat b := rfl
@[simp] theorem bufWrite_outBuffer (i : BitVec 6) (b : Byte) : (s.bufWrite i b).outBuffer = s.outBuffer := rfl
@[simp] theorem bufWrite_answer (i : BitVec 6) (b : Byte) : (s.bufWrite i b).answer = s.answer := rfl
@[simp] theorem bufWrite_requests (i : BitVec 6) (b : Byte) : (s.bufWrite i b).requests = s.requests := rfl
@[simp] theorem bufWrite_epoch (i : BitVec 6) (b : Byte) : (s.bufWrite i b).epoch = s.epoch := rfl

@[simp] theorem outWrite_state (bs : List Byte) : (s.outWrite bs).state = s.state := rfl
@[simp] theorem outWrite_target (bs : List Byte) : (s.outWrite bs).target = s.target := rfl
@[simp] theorem outWrite_cursor (bs : List Byte) : (s.outWrite bs).cursor = s.cursor := rfl
@[simp] theorem outWrite_frameValid (bs : List Byte) : (s.outWrite bs).frameValid = s.frameValid := rfl
@[simp] theorem outWrite_buf (bs : List Byte) : (s.outWrite bs).buf = s.buf := rfl
@[simp] theorem outWrite_outBuffer (bs : List Byte) : (s.outWrite bs).outBuffer = s.outBuffer.storeAll 0 bs := rfl
@[simp] theorem outWrite_answer (bs : List Byte) : (s.outWrite bs).answer = s.answer := rfl
@[simp] theorem outWrite_requests (bs : List Byte) : (s.outWrite bs).requests = s.requests := rfl
@[simp] theorem outWrite_epoch (bs : List Byte) : (s.outWrite bs).epoch = s.epoch := rfl

@[simp] theorem enter_state (p : ParserState) : (s.enter p).state = p := rfl
@[simp] theorem enter_target (p : ParserState) : (s.enter p).target = s.target := rfl
@[simp] theorem enter_cursor (p : ParserState) : (s.enter p).cursor = s.cursor := rfl
@[simp] theorem enter_frameValid (p : ParserState) : (s.enter p).frameValid = s.frameValid := rfl
@[simp] theorem enter_buf (p : ParserState) : (s.enter p).buf = s.buf := rfl
@[simp] theorem enter_outBuffer (p : ParserState) : (s.enter p).outBuffer = s.outBuffer := rfl
@[simp] theorem enter_answer (p : ParserState) : (s.enter p).answer = s.answer := rfl
@[simp] theorem enter_requests (p : ParserState) : (s.enter p).requests = s.requests := rfl
@[simp] theorem enter_epoch (p : ParserState) : (s.enter p).epoch = s.epoch := rfl

@[simp] theorem setCursor_state (c : BitVec 6) : (s.setCursor c).state = s.state := rfl
@[simp] theorem setCursor_target (c : BitVec 6) : (s.setCursor c).target = s.target := rfl
@[simp] theorem setCursor_cursor (c : BitVec 6) : (s.setCursor c).cursor = c := rfl
@[simp] theorem setCursor_frameValid (c : BitVec 6) : (s.setCursor c).frameValid = s.frameValid := rfl
@[simp] theorem setCursor_buf (c : BitVec 6) : (s.setCursor c).buf = s.buf := rfl
@[simp] theorem setCursor_outBuffer (c : BitVec 6) : (s.setCursor c).outBuffer = s.outBuffer := rfl
@[simp] theorem setCursor_answer (c : BitVec 6) : (s.setCursor c).answer = s.answer := rfl
@[simp] theorem setCursor_requests (c : BitVec 6) : (s.setCursor c).requests = s.requests := rfl
@[simp] theorem setCursor_epoch (c : BitVec 6) : (s.setCursor c).epoch = s.epoch := rfl

@[simp] theorem setTarget_state (t : BitVec 6) : (s.setTarget t).state = s.state := rfl
@[simp] theorem setTarget_target (t : BitVec 6) : (s.setTarget t).target = t := rfl
@[simp] theorem setTarget_cursor (t : BitVec 6) : (s.setTarget t).cursor = s.cursor := rfl
@[simp] theorem setTarget_frameValid (t : BitVec 6) : (s.setTarget t).frameValid = s.frameValid := rfl
@[simp] theorem setTarget_buf (t : BitVec 6) : (s.setTarget t).buf = s.buf := rfl
@[simp] theorem setTarget_outBuffer (t : BitVec 6) : (s.setTarget t).outBuffer = s.outBuffer := rfl
@[simp] theorem setTarget_answer (t : BitVec 6) : (s.setTarget t).answer = s.answer := rfl
@[simp] theorem setTarget_requests (t : BitVec 6) : (s.setTarget t).requests = s.requests := rfl
@[simp] theorem setTarget_epoch (t : BitVec 6) : (s.setTarget t).epoch = s.epoch := rfl

@[simp] theorem forget_state : s.forget.state = s.state := rfl
@[simp] theorem forget_target : s.forget.target = Config.freeTarget s.epoch := rfl
@[simp] theorem forget_cursor : s.forget.cursor = s.cursor := rfl
@[simp] theorem forget_frameValid : s.forget.frameValid = s.frameValid := rfl
@[simp] theorem forget_buf : s.forget.buf = [] := rfl
@[simp] theorem forget_outBuffer : s.forget.outBuffer = s.outBuffer := rfl
@[simp] theorem forget_answer : s.forget.answer = s.answer := rfl
@[simp] theorem forget_requests : s.forget.requests = s.requests := rfl
@[simp] theorem forget_epoch : s.forget.epoch = s.epoch + 1 := rfl

@[simp] theorem reply_state (r : Result) : (s.reply r).state = s.state := rfl
@[simp] theorem reply_target (r : Result) : (s.reply r).target = s.target := rfl
@[simp] theorem reply_cursor (r : Result) : (s.reply r).cursor = s.cursor := rfl
@[simp] theorem reply_frameValid (r : Result) : (s.reply r).frameValid = s.frameValid := rfl
@[simp] theorem reply_buf (r : Result) : (s.reply r).buf = s.buf := rfl
@[simp] theorem reply_outBuffer (r : Result) : (s.reply r).outBuffer = s.outBuffer := rfl
@[simp] theorem reply_answer (r : Result) : (s.reply r).answer = some r := rfl
@[simp] theorem reply_requests (r : Result) : (s.reply r).requests = s.requests := rfl
@[simp] theorem reply_epoch (r : Result) : (s.reply r).epoch = s.epoch := rfl

@[simp] theorem withFetchWord_state (nbits w : Nat) : (s.withFetchWord nbits w).state = s.state := rfl
@[simp] theorem withFetchWord_target (nbits w : Nat) : (s.withFetchWord nbits w).target = s.target := rfl
@[simp] theorem withFetchWord_cursor (nbits w : Nat) : (s.withFetchWord nbits w).cursor = s.cursor := rfl
@[simp] theorem withFetchWord_frameValid (nbits w : Nat) : (s.withFetchWord nbits w).frameValid = s.frameValid := rfl
@[simp] theorem withFetchWord_buf (nbits w : Nat) : (s.withFetchWord nbits w).buf = s.buf := rfl
@[simp] theorem withFetchWord_outBuffer (nbits w : Nat) : (s.withFetchWord nbits w).outBuffer = s.outBuffer := rfl
@[simp] theorem withFetchWord_answer (nbits w : Nat) : (s.withFetchWord nbits w).answer = s.answer := rfl
@[simp] theorem withFetchWord_requests (nbits w : Nat) : (s.withFetchWord nbits w).requests = tableRequest nbits w :: s.requests := rfl
@[simp] theorem withFetchWord_epoch (nbits w : Nat) : (s.withFetchWord nbits w).epoch = s.epoch := rfl

end Sys2Proof.Machine.State
end

