-- ==== Sys2Proof/Laws/Memory.lean ====
section
/-! SUPPORT. What the memory operations do, and that they keep the canonical form. -/

namespace Sys2Proof.Machine

namespace Memory

@[simp] theorem byteAt_nil (a : Nat) : Memory.byteAt [] a = none := rfl

@[simp] theorem byteAt_cons (k : Nat) (b : Byte) (m : Memory) (a : Nat) :
    Memory.byteAt ((k, b) :: m) a = if k = a then some b else Memory.byteAt m a := rfl

/-- A read after a store. -/
theorem byteAt_store (m : Memory) (a : Nat) (b : Byte) (x : Nat) :
    (m.store a b).byteAt x = if x = a then some b else m.byteAt x := by
  induction m with
  | nil => simp [store, eq_comm]
  | cons c m ih =>
    obtain ⟨k, v⟩ := c
    unfold store
    split
    · simp [eq_comm]
    · split
      · subst_vars; simp only [byteAt_cons, eq_comm]; split <;> simp_all
      · simp only [byteAt_cons, ih]
        by_cases hk : k = x
        · subst hk; simp; omega
        · simp [hk]

@[simp] theorem byteAt_store_self (m : Memory) (a : Nat) (b : Byte) : (m.store a b).byteAt a = some b := by
  simp [byteAt_store]

theorem byteAt_store_ne (m : Memory) {a x : Nat} (b : Byte) (h : x ≠ a) : (m.store a b).byteAt x = m.byteAt x := by
  simp [byteAt_store, h]

/-- Every index listed after a store is the stored one or was listed before. -/
theorem mem_store {m : Memory} {a : Nat} {b : Byte} {c : Host.Cell} (h : c ∈ m.store a b) :
    c = (a, b) ∨ c ∈ m := by
  induction m with
  | nil => simpa [store] using h
  | cons d m ih =>
    obtain ⟨k, v⟩ := d
    unfold store at h
    split at h
    · simpa using h
    · split at h
      · rcases List.mem_cons.1 h with h | h <;> simp [h]
      · rcases List.mem_cons.1 h with h | h
        · simp [h]
        · rcases ih h with h | h <;> simp [h]

/-- A store keeps the canonical form. -/
theorem wf_store {m : Memory} (h : m.wf) (a : Nat) (b : Byte) : (m.store a b).wf := by
  induction m with
  | nil => simp [store, wf]
  | cons d m ih =>
    obtain ⟨k, v⟩ := d
    have hk := (List.pairwise_cons.1 h).1
    have hm := (List.pairwise_cons.1 h).2
    unfold store
    split
    next hlt =>
      refine List.pairwise_cons.2 ⟨fun c hc => ?_, h⟩
      rcases List.mem_cons.1 hc with rfl | hc
      · exact hlt
      · exact lt_trans hlt (hk c hc)
    next hge =>
      split
      next heq => subst heq; exact List.pairwise_cons.2 ⟨hk, hm⟩
      next hne =>
        refine List.pairwise_cons.2 ⟨fun c hc => ?_, ih hm⟩
        rcases mem_store hc with rfl | hc
        · show k < a; omega
        · exact hk c hc

/-- Storing bytes in a row keeps the canonical form. -/
theorem wf_storeAll {m : Memory} (h : m.wf) (a : Nat) (bs : List Byte) : (m.storeAll a bs).wf := by
  induction bs generalizing m a with
  | nil => exact h
  | cons b bs ih => exact ih (wf_store h a b) (a + 1)

/-- A read after storing bytes in a row. -/
theorem byteAt_storeAll (m : Memory) (a : Nat) (bs : List Byte) (x : Nat) :
    (m.storeAll a bs).byteAt x = if a ≤ x ∧ x < a + bs.length then bs[x - a]? else m.byteAt x := by
  induction bs generalizing m a with
  | nil => simp [storeAll]
  | cons b bs ih =>
    rw [storeAll, ih]
    by_cases hx : x = a
    · subst hx
      rw [if_neg (by omega), if_pos (by simp), byteAt_store_self]; simp
    · by_cases h : a + 1 ≤ x ∧ x < a + 1 + bs.length
      · obtain ⟨d, rfl⟩ : ∃ d, x = a + 1 + d := ⟨x - (a + 1), by omega⟩
        rw [if_pos h, if_pos (by simp only [List.length_cons]; omega),
          show a + 1 + d - a = d + 1 by omega, List.getElem?_cons_succ, show a + 1 + d - (a + 1) = d by omega]
      · rw [if_neg h, if_neg (by simp only [List.length_cons]; omega), byteAt_store_ne _ _ hx]

end Memory

/-- The reset memory has the canonical form. -/
theorem reset_buf_wf : State.reset.buf.wf := List.Pairwise.nil

/-- A read of `buf` after a write of it. -/
theorem bufRead_bufWrite (s : State) (i : BitVec 6) (b : Byte) (x : Nat) :
    (s.bufWrite i b).bufRead x = if x = i.toNat then b else s.bufRead x := by
  simp only [State.bufRead, State.bufWrite_buf, State.bufWrite_epoch, Memory.byteAt_store]
  split <;> simp

@[simp] theorem bufRead_invalidateFrame (s : State) : s.invalidateFrame.bufRead = s.bufRead := rfl
@[simp] theorem bufRead_validateFrame (s : State) : s.validateFrame.bufRead = s.bufRead := rfl
@[simp] theorem bufRead_enter (s : State) (p : ParserState) : (s.enter p).bufRead = s.bufRead := rfl
@[simp] theorem bufRead_setCursor (s : State) (c : BitVec 6) : (s.setCursor c).bufRead = s.bufRead := rfl
@[simp] theorem bufRead_setTarget (s : State) (t : BitVec 6) : (s.setTarget t).bufRead = s.bufRead := rfl
@[simp] theorem bufRead_reply (s : State) (r : Result) : (s.reply r).bufRead = s.bufRead := rfl
@[simp] theorem bufRead_outWrite (s : State) (bs : List Byte) : (s.outWrite bs).bufRead = s.bufRead := rfl

@[simp] theorem length_bufSlice (s : State) (a b : Nat) : (s.bufSlice a b).length = b - a := by
  simp [State.bufSlice]

/-- Byte `i` of a slice. -/
theorem getElem?_bufSlice (s : State) (a b i : Nat) (h : i < b - a) :
    (s.bufSlice a b)[i]? = some (s.bufRead (a + i)) := by
  simp [State.bufSlice, h]

/-- A slice depends on its own bytes only. -/
theorem bufSlice_congr {s t : State} {a b : Nat} (h : ∀ i, a ≤ i → i < b → s.bufRead i = t.bufRead i) :
    s.bufSlice a b = t.bufSlice a b := by
  refine List.map_congr_left fun i hi => ?_
  rw [List.mem_range'_1] at hi
  exact h i hi.1 (by omega)

/-- A slice and the byte after it. -/
theorem bufSlice_succ (s : State) {a b : Nat} (h : a ≤ b) :
    s.bufSlice a (b + 1) = s.bufSlice a b ++ [s.bufRead b] := by
  rw [State.bufSlice, State.bufSlice, show b + 1 - a = (b - a) + 1 by omega, List.range'_1_concat]
  simp [show a + (b - a) = b by omega]

end Sys2Proof.Machine
end

