-- ==== Sys2Proof/Laws/Ops.lean ====
section
/-! SUPPORT. What the shared operations can do, said once. -/

namespace Sys2Proof.Machine

@[simp] theorem respond_next (s : State) (r : Result) : respond (s, r) = .next (s.reply r) := rfl

/-- An operation that responds answers a next state, and only that one. -/
theorem respond_eq_next {sr : State × Result} {t : State} (h : respond sr = .next t) : t = sr.1.reply sr.2 := by
  cases h; rfl

/-- The two outcomes of giving the host bytes (R129, R195). -/
theorem deliver_cases (cap : Nat) (bytes : List Byte) (s : State) :
    (cap < bytes.length ∧ deliver cap bytes s = (s, .error .bufferOverflow)) ∨
    (bytes.length ≤ cap ∧ deliver cap bytes s = (s.outWrite bytes, .written bytes.length bytes)) := by
  unfold deliver encodeInto
  by_cases h : cap < bytes.length
  · exact .inl ⟨h, by rw [if_pos h]; rfl⟩
  · exact .inr ⟨Nat.le_of_not_lt h, by rw [if_neg h]⟩

theorem deliver_fits {cap : Nat} {bytes : List Byte} (h : bytes.length ≤ cap) (s : State) :
    deliver cap bytes s = (s.outWrite bytes, .written bytes.length bytes) := by
  rcases deliver_cases cap bytes s with ⟨h', _⟩ | ⟨_, e⟩
  · omega
  · exact e

theorem deliver_overflows {cap : Nat} {bytes : List Byte} (h : cap < bytes.length) (s : State) :
    deliver cap bytes s = (s, .error .bufferOverflow) := by
  rcases deliver_cases cap bytes s with ⟨_, e⟩ | ⟨h', _⟩
  · exact e
  · omega

/-- What the length rule and the content check of a decode can answer (R121). -/
theorem decodeChecked_eq (p : Params) (m : Nat) (fixed : Bool) (content : List Byte → Except ErrorKind Record)
    (payload : List Byte) :
    decodeChecked p m fixed content payload =
      if m ≤ payload.length ∧ (p.fixedLenExact = true → fixed = true → payload.length = m) then content payload
      else .error .invalidPayloadLength := by
  unfold decodeChecked lengthOk
  congr 1
  simp only [Bool.and_eq_true, decide_eq_true_eq, Bool.not_eq_true', Bool.and_eq_false_imp, bne_eq_false_iff_eq,
    eq_iff_iff]
  tauto

/-- What one PUSH_BYTE can do: the eight rows of R96's table. -/
theorem pushByteStep_cases (p : Params) (byte : Byte) (s : State) :
    (s.state = .awaitingSync ∧ byte ∈ p.addrSet ∧
      pushByteStep p byte s =
        (((s.invalidateFrame.setCursor 0).bufWrite 0 byte).enter .awaitingLength, .incomplete)) ∨
    (s.state = .awaitingSync ∧ byte ∉ p.addrSet ∧
      pushByteStep p byte s = (s.invalidateFrame, .error (.invalidSync byte))) ∨
    (s.state = .awaitingLength ∧ p.minTotal ≤ byte.toNat + 2 ∧ byte.toNat + 2 < p.maxTotalExcl ∧
      pushByteStep p byte s =
        ((((s.invalidateFrame.setCursor (s.cursor + 1)).bufWrite 1 byte).setTarget
          (BitVec.ofNat 6 (byte.toNat + 1))).enter .reading, .incomplete)) ∨
    (s.state = .awaitingLength ∧ (byte.toNat + 2 < p.minTotal ∨ p.maxTotalExcl ≤ byte.toNat + 2) ∧
      pushByteStep p byte s = (s.invalidateFrame.enter .awaitingSync, .error (.invalidPacketLength byte))) ∨
    (s.state = .reading ∧ (s.cursor + 1).toNat + 1 ≠ s.target.toNat ∧
      pushByteStep p byte s = (appendByte byte s.invalidateFrame, .incomplete)) ∨
    (s.state = .reading ∧ (s.cursor + 1).toNat + 1 = s.target.toNat ∧
      pushByteStep p byte s = ((appendByte byte s.invalidateFrame).enter .awaitingCrc, .incomplete)) ∨
    (s.state = .awaitingCrc ∧
      frameDigest p ((appendByte byte s.invalidateFrame).bufSlice 2 (s.cursor + 1).toNat) = byte ∧
      pushByteStep p byte s =
        (((appendByte byte s.invalidateFrame).enter .awaitingSync).validateFrame,
          .complete ((s.cursor + 1).toNat + 1))) ∨
    (s.state = .awaitingCrc ∧
      frameDigest p ((appendByte byte s.invalidateFrame).bufSlice 2 (s.cursor + 1).toNat) ≠ byte ∧
      pushByteStep p byte s =
        ((appendByte byte s.invalidateFrame).enter .awaitingSync,
          .error (.invalidCrc
            (frameDigest p ((appendByte byte s.invalidateFrame).bufSlice 2 (s.cursor + 1).toNat)) byte))) := by
  unfold pushByteStep
  cases hs : s.state with
  | awaitingSync =>
    by_cases h : byte ∈ p.addrSet
    · exact .inl ⟨rfl, h, if_pos h⟩
    · exact .inr (.inl ⟨rfl, h, if_neg h⟩)
  | awaitingLength =>
    by_cases h : byte.toNat + 2 < p.minTotal ∨ p.maxTotalExcl ≤ byte.toNat + 2
    · exact .inr (.inr (.inr (.inl ⟨rfl, h, if_pos h⟩)))
    · exact .inr (.inr (.inl ⟨rfl, by omega, by omega, if_neg h⟩))
  | reading =>
    by_cases h : (s.cursor + 1).toNat + 1 = s.target.toNat
    · exact .inr (.inr (.inr (.inr (.inr (.inl ⟨rfl, h, if_pos h⟩)))))
    · exact .inr (.inr (.inr (.inr (.inl ⟨rfl, h, if_neg h⟩))))
  | awaitingCrc =>
    by_cases h :
      frameDigest p ((appendByte byte s.invalidateFrame).bufSlice 2 (s.cursor + 1).toNat) = byte
    · exact .inr (.inr (.inr (.inr (.inr (.inr (.inl ⟨rfl, h, if_neg (not_not.2 h)⟩))))))
    · exact .inr (.inr (.inr (.inr (.inr (.inr (.inr ⟨rfl, h, if_pos h⟩))))))

@[simp] theorem appendByte_cursor (b : Byte) (s : State) : (appendByte b s).cursor = s.cursor + 1 := rfl
@[simp] theorem appendByte_state (b : Byte) (s : State) : (appendByte b s).state = s.state := rfl
@[simp] theorem appendByte_target (b : Byte) (s : State) : (appendByte b s).target = s.target := rfl
@[simp] theorem appendByte_frameValid (b : Byte) (s : State) : (appendByte b s).frameValid = s.frameValid := rfl
@[simp] theorem appendByte_buf (b : Byte) (s : State) :
    (appendByte b s).buf = s.buf.store (s.cursor + 1).toNat b := rfl
@[simp] theorem appendByte_outBuffer (b : Byte) (s : State) : (appendByte b s).outBuffer = s.outBuffer := rfl
@[simp] theorem appendByte_answer (b : Byte) (s : State) : (appendByte b s).answer = s.answer := rfl
@[simp] theorem appendByte_requests (b : Byte) (s : State) : (appendByte b s).requests = s.requests := rfl
@[simp] theorem appendByte_epoch (b : Byte) (s : State) : (appendByte b s).epoch = s.epoch := rfl

theorem bufRead_appendByte (b : Byte) (s : State) (x : Nat) :
    (appendByte b s).bufRead x = if x = (s.cursor + 1).toNat then b else s.bufRead x := by
  rw [appendByte, bufRead_bufWrite]; rfl

/-- After RESET every byte of `buf` is a free value. -/
theorem bufRead_forget (s : State) (x : Nat) : s.forget.bufRead x = Config.freeByte (s.epoch + 1) x := rfl

/-- One operation of a trace that answers a next state. -/
theorem trace_cons_next {p : Params} {i : Instr} {s t : State} (h : execWith p i s = .next t) (is : List Instr) :
    trace p (i :: is) s = ((trace p is t).1, t.answer.toList ++ (trace p is t).2) := by
  simp [trace, h]

/-- PUSH_BYTES one byte at a time (30_encoding.md R78). -/
theorem pushBytes_cons (p : Params) (b : Byte) (bs : List Byte) (s : State) :
    pushBytes p (b :: bs) s =
      ((pushBytes p bs ((pushByteStep p b s).1.reply (pushByteStep p b s).2)).1,
        (pushByteStep p b s).2 :: (pushBytes p bs ((pushByteStep p b s).1.reply (pushByteStep p b s).2)).2) := rfl

@[simp] theorem pushBytes_nil (p : Params) (s : State) : pushBytes p [] s = (s, []) := rfl

end Sys2Proof.Machine
end

