-- ==== Sys2Proof/Laws/Codecs.lean ====
section
/-! SUPPORT. What the registry, the encoder's choice of codec and the frame builder can answer. -/

namespace Sys2Proof.Machine

/-- The codec that ENCODE_FRAME finds for a record: a registered record has one, any other is refused (R171). -/
theorem encodePayload_cases (p : Params) (r : Record) :
    (r.registered p = true ∧ ∃ x, encodePayload p r = .ok x) ∨
    (r.registered p = false ∧ encodePayload p r = .error (.recordNotRegistered r)) := by
  cases r with
  | linkStatistics f => exact .inl ⟨rfl, _, rfl⟩
  | rcChannels ch => exact .inl ⟨rfl, _, rfl⟩
  | baroAltitude alt vs => exact .inl ⟨rfl, _, rfl⟩
  | extra tag fields =>
    have search : (registry p).findSome? (fun c => (c.payloadOf (.extra tag fields)).map fun payload =>
        (c.packetType, payload)) =
        (p.registryExtra.find? fun c => c.tag == tag).map fun c => (tag, c.encode fields) := by
      simp only [registry, List.cons_append, List.nil_append, linkstatCodec, rcCodec, baroCodec,
        List.findSome?_cons, Option.map_none]
      induction p.registryExtra with
      | nil => rfl
      | cons c cs ih =>
        rw [List.map_cons, List.findSome?_cons, List.find?_cons, ih]
        by_cases hc : c.tag = tag
        · subst hc; simp [extraCodec]
        · have hc' : tag ≠ c.tag := fun h => hc h.symm
          have hb : (c.tag == tag) = false := by simpa using hc
          rw [hb]
          simp [extraCodec, hc']
    unfold encodePayload
    rw [search]
    cases hf : p.registryExtra.find? fun c => c.tag == tag with
    | none =>
      refine .inr ⟨?_, rfl⟩
      rw [List.find?_eq_none] at hf
      simpa [Record.registered] using hf
    | some c =>
      refine .inl ⟨?_, _, rfl⟩
      simp only [Record.registered, List.any_eq_true]
      exact ⟨c, List.mem_of_find?_eq_some hf, by simpa using List.find?_some hf⟩

@[simp] theorem length_rawFrame (p : Params) (a tag : Byte) (payload : List Byte) :
    (rawFrame p a tag payload).length = payload.length + 4 := by
  simp [rawFrame]

@[simp] theorem frameAddress_rawFrame (p : Params) (a tag : Byte) (payload : List Byte) :
    frameAddress (rawFrame p a tag payload) = a := rfl

@[simp] theorem frameTag_rawFrame (p : Params) (a tag : Byte) (payload : List Byte) :
    frameTag (rawFrame p a tag payload) = tag := rfl

@[simp] theorem frameLengthByte_rawFrame (p : Params) (a tag : Byte) (payload : List Byte) :
    frameLengthByte (rawFrame p a tag payload) = BitVec.ofNat 8 (payload.length + 2) := rfl

@[simp] theorem framePayload_rawFrame (p : Params) (a tag : Byte) (payload : List Byte) :
    framePayload (rawFrame p a tag payload) = payload := by
  simp [framePayload, rawFrame]

@[simp] theorem frameBody_rawFrame (p : Params) (a tag : Byte) (payload : List Byte) :
    frameBody (rawFrame p a tag payload) = tag :: payload := by
  show (tag :: (payload ++ [_])).dropLast = _
  rw [← List.cons_append, List.dropLast_concat]

@[simp] theorem frameCrc_rawFrame (p : Params) (a tag : Byte) (payload : List Byte) :
    frameCrc (rawFrame p a tag payload) = frameDigest p (tag :: payload) := by
  rw [frameCrc, length_rawFrame, rawFrame, List.getD_eq_getElem?_getD,
    List.getElem?_append_right (by simp)]
  simp

/-- The default build's digest is the source's fold from zero with the default polynomial. -/
theorem frameDigest_params (bytes : List Byte) : frameDigest params bytes = crc8 defaultPoly bytes := rfl

/-- Where BARO_PAYLOAD is 3 the payload is the three field bytes. -/
theorem baroPack_of_three {p : Params} (h : p.baroPayload = 3) (alt : BitVec 16) (vs : BitVec 8) :
    baroPack p alt vs = baroFields alt vs := by
  simp [baroPack, h]

@[simp] theorem length_baroFields (alt : BitVec 16) (vs : BitVec 8) : (baroFields alt vs).length = 3 := rfl

/-- An altitude payload has BARO_PAYLOAD bytes, and never fewer than its three fields. -/
theorem length_baroPack (p : Params) (alt : BitVec 16) (vs : BitVec 8) :
    (baroPack p alt vs).length = max 3 p.baroPayload := by
  simp [baroPack]; omega

/-- The result of a decode never reports written bytes. -/
theorem decodeResult_not_written (e : Except ErrorKind Record) (n : Nat) (bytes : List Byte) :
    decodeResult e ≠ .written n bytes := by
  cases e <;> simp [decodeResult]

/-- What `dispatch` can answer: a packet or an error, never written bytes. -/
theorem dispatchPayload_not_written (p : Params) (tag : Byte) (payload : List Byte) (n : Nat) (bytes : List Byte) :
    dispatchPayload p tag payload ≠ .written n bytes := by
  unfold dispatchPayload
  split
  · exact decodeResult_not_written _ _ _
  · simp

end Sys2Proof.Machine
end

