-- ==== Sys2Proof/Laws/PerInstr.lean ====
section
/-! SUPPORT. The per-instruction family RowCode: the encoding of every operation carries its row's match value of
spec/opcode_table.json (30_encoding.md R73, R67). -/

namespace Sys2Proof.Laws.RowCode

open Machine

/-- The match value of an operation's row; the fallback row has none of its own, its tag is any. -/
def code : Instr → Byte
  | .reset => 0x0
  | .pushByte _ => 0x1
  | .crc8Digest _ => 0x2
  | .dispatch => 0x3
  | .rcDecode _ => 0x4
  | .rcEncode _ _ => 0x5
  | .baroDecode _ => 0x6
  | .baroEncode _ _ _ => 0x7
  | .altUnpack _ => 0x8
  | .altPack _ => 0x9
  | .vsUnpack _ => 0xA
  | .vsPack _ => 0xB
  | .linkstatDecode _ => 0xC
  | .linkstatEncode _ _ => 0xD
  | .encodeFrame _ _ _ => 0xE
  | .reserved0xF => 0xF
  | .frameLinkstat _ _ => 0x14
  | .frameRcChannels _ _ => 0x16
  | .frameBaroAlt _ _ => 0x09
  | .frameNotImplemented _ tag _ => tag

/-- A command's first byte is its op code; byte 2 of a frame is its tag. -/
def Statement (i : Instr) : Prop :=
  match encode i with
  | .command bytes => bytes.head? = some (code i)
  | .frame bytes => frameTag bytes = code i

theorem reset : Statement .reset := rfl
theorem pushByte (b : Byte) : Statement (.pushByte b) := rfl
theorem crc8Digest (bs : List Byte) : Statement (.crc8Digest bs) := rfl
theorem dispatch : Statement .dispatch := rfl
theorem rcDecode (bs : List Byte) : Statement (.rcDecode bs) := rfl
theorem rcEncode (ch : Channels) (cap : Nat) : Statement (.rcEncode ch cap) := rfl
theorem baroDecode (bs : List Byte) : Statement (.baroDecode bs) := rfl
theorem baroEncode (alt : BitVec 16) (vs : BitVec 8) (cap : Nat) : Statement (.baroEncode alt vs cap) := rfl
theorem altUnpack (v : BitVec 16) : Statement (.altUnpack v) := rfl
theorem altPack (v : BitVec 32) : Statement (.altPack v) := rfl
theorem vsUnpack (v : BitVec 8) : Statement (.vsUnpack v) := rfl
theorem vsPack (v : BitVec 16) : Statement (.vsPack v) := rfl
theorem linkstatDecode (bs : List Byte) : Statement (.linkstatDecode bs) := rfl
theorem linkstatEncode (f : LinkFields) (cap : Nat) : Statement (.linkstatEncode f cap) := rfl
theorem encodeFrame (d : Byte) (r : Record) (cap : Nat) : Statement (.encodeFrame d r cap) := rfl
theorem reserved0xF : Statement .reserved0xF := rfl
theorem frameLinkstat (a : Byte) (bs : List Byte) : Statement (.frameLinkstat a bs) := rfl
theorem frameRcChannels (a : Byte) (bs : List Byte) : Statement (.frameRcChannels a bs) := rfl
theorem frameBaroAlt (a : Byte) (bs : List Byte) : Statement (.frameBaroAlt a bs) := rfl
theorem frameNotImplemented (a tag : Byte) (bs : List Byte) : Statement (.frameNotImplemented a tag bs) := rfl

end Sys2Proof.Laws.RowCode
end

