-- ==== Sys2Proof/Tests/Slice0.lean ====
section
/-! SUPPORT. The model's own tests and the witnesses of its statements. Expected values are the spec's: the vectors
V-… of 95_test_vectors.md, the tables of 30_encoding.md, and the corner cases of the rules named. -/

namespace Sys2Proof.Tests

set_option Elab.async false

open Machine Safety

/-- The result of one operation. -/
def answerOf (i : Instr) (s : State) : Option Result :=
  match exec i s with
  | .next t => t.answer
  | _ => none

/-- The registers after one operation, as 95_test_vectors.md writes them: state / cursor / frame_valid. -/
def registersOf (i : Instr) (s : State) : Option (ParserState × BitVec 6 × Bool) :=
  match exec i s with
  | .next t => some (t.state, t.cursor, t.frameValid)
  | _ => none

/-- Bytes of `buf` from index 0. -/
def stored (bs : List Byte) : Memory := Memory.storeAll [] 0 bs

/-- After an address byte. -/
def lengthState : State := { State.reset with state := .awaitingLength, buf := stored [0xC8] }

/-- After `C8 L` with a small number of bytes following: reading towards `target`. -/
def readingState (target : BitVec 6) (bs : List Byte) : State :=
  { State.reset with state := .reading, target := target, cursor := BitVec.ofNat 6 (bs.length - 1), buf := stored bs }

/-- After `C8 02 3A`: awaiting the CRC byte A0 (V-FSM-1). -/
def crcState : State := { readingState 3 [0xC8, 0x02, 0x3A] with state := .awaitingCrc }

/-- After V-FSM-1: the 4-byte frame is held. -/
def heldState : State :=
  { State.reset with cursor := 3, target := 3, frameValid := true, buf := stored [0xC8, 0x02, 0x3A, 0xA0] }

/-- A state that has one request. -/
def issued (r : Request) : State := { State.reset with requests := [r] }

def scenario : List Byte := [0xC8, 0x0C, 0x14, 0x10, 0x13, 0x63, 0x97, 0x01, 0x02, 0x03, 0x08, 0x58, 0x94, 0xFC]
def scenarioFields : LinkFields := #v[16, 19, 99, 151, 1, 2, 3, 8, 88, 148]
def centre : Channels := Vector.replicate 16 992
def centreBytes : List Byte :=
  [0xE0, 0x03, 0x1F, 0xF8, 0xC0, 0x07, 0x3E, 0xF0, 0x81, 0x0F, 0x7C,
   0xE0, 0x03, 0x1F, 0xF8, 0xC0, 0x07, 0x3E, 0xF0, 0x81, 0x0F, 0x7C]

/-! ### Each row's encoding, written out from R73, R61 and the operand layout -/

theorem test_decode_reset : decode (.command [0x00]) = .ok .reset := by decide +kernel
theorem test_decode_pushByte : decode (.command [0x01, 0xC8]) = .ok (.pushByte 0xC8) := by decide +kernel
theorem test_decode_crc8Digest :
    decode (.command [0x02, 0x03, 0x09, 0x27, 0x10]) = .ok (.crc8Digest [0x09, 0x27, 0x10]) := by decide +kernel
theorem test_decode_dispatch : decode (.command [0x03]) = .ok .dispatch := by decide +kernel
theorem test_decode_rcDecode : decode (.command [0x04, 0x02, 0xE0, 0x03]) = .ok (.rcDecode [0xE0, 0x03]) := by decide +kernel
/-- Lanes 1, 2047, then zeros; capacity 1000 = 0b111_1101000. -/
theorem test_decode_rcEncode :
    decode (.command ([0x05, 0x00, 0x01, 0x07, 0xFF] ++ List.replicate 28 0 ++ [0xE8, 0x07])) =
      .ok (.rcEncode #v[1, 2047, 0, 0, 0, 0, 0, 0, 0, 0, 0, 0, 0, 0, 0, 0] 1000) := by decide +kernel
theorem test_decode_baroDecode :
    decode (.command [0x06, 0x03, 0x88, 0xE5, 0x7D]) = .ok (.baroDecode [0x88, 0xE5, 0x7D]) := by decide +kernel
/-- P4 step 3: `7 : 2616, 83, cap 3`. -/
theorem test_decode_baroEncode :
    decode (.command [0x07, 0x26, 0x16, 0x83, 0x03]) = .ok (.baroEncode 0x2616 (-125) 3) := by decide +kernel
/-- P3 step 21: `8 : 88E5`. -/
theorem test_decode_altUnpack : decode (.command [0x08, 0x88, 0xE5]) = .ok (.altUnpack 0x88E5) := by decide +kernel
/-- P4 step 1: `9 : FFFFFF06`. -/
theorem test_decode_altPack : decode (.command [0x09, 0xFF, 0xFF, 0xFF, 0x06]) = .ok (.altPack (-250)) := by decide +kernel
/-- P4 step 10: `A : 83`. -/
theorem test_decode_vsUnpack : decode (.command [0x0A, 0x83]) = .ok (.vsUnpack (-125)) := by decide +kernel
/-- P4 step 2: `B : F63C`. -/
theorem test_decode_vsPack : decode (.command [0x0B, 0xF6, 0x3C]) = .ok (.vsPack (-2500)) := by decide +kernel
theorem test_decode_linkstatDecode : decode (.command [0x0C, 0x01, 0x10]) = .ok (.linkstatDecode [0x10]) := by decide +kernel
theorem test_decode_linkstatEncode :
    decode (.command [0x0D, 16, 19, 99, 151, 1, 2, 3, 8, 88, 148, 0x0A]) =
      .ok (.linkstatEncode scenarioFields 10) := by decide +kernel
theorem test_decode_encodeFrame :
    decode (.command [0x0E, 0xC8, 0x02, 0x26, 0x16, 0x83, 0x07]) =
      .ok (.encodeFrame 0xC8 (.baroAltitude 0x2616 (-125)) 7) := by decide +kernel
theorem test_decode_encodeFrame_linkStatistics :
    decode (.command [0x0E, 0xC8, 0x00, 16, 19, 99, 151, 1, 2, 3, 8, 88, 148, 0x0E]) =
      .ok (.encodeFrame 0xC8 (.linkStatistics scenarioFields) 14) := by decide +kernel
theorem test_decode_reserved0xF : decode (.command [0x0F]) = .ok .reserved0xF := by decide +kernel
/-- The source's scenario frame. -/
theorem test_decode_frameLinkstat :
    decode (.frame scenario) = .ok (.frameLinkstat 0xC8 [16, 19, 99, 151, 1, 2, 3, 8, 88, 148]) := by decide +kernel
/-- V-SEQ-4's first frame. -/
theorem test_decode_frameRcChannels :
    decode (.frame [0xC8, 0x07, 0x16, 0, 0, 0, 0, 0, 0x86]) = .ok (.frameRcChannels 0xC8 [0, 0, 0, 0, 0]) := by decide +kernel
/-- V-BARO-1. -/
theorem test_decode_frameBaroAlt :
    decode (.frame [0xC8, 0x05, 0x09, 0x27, 0x10, 0x00, 0xB3]) = .ok (.frameBaroAlt 0xC8 [0x27, 0x10, 0x00]) := by
  decide +kernel
/-- V-DSP-9. -/
theorem test_decode_frameNotImplemented :
    decode (.frame [0xC8, 0x06, 0x28, 0xEA, 0xC8, 0x01, 0x02, 0x7E]) =
      .ok (.frameNotImplemented 0xC8 0x28 [0xEA, 0xC8, 0x01, 0x02]) := by decide +kernel

theorem test_encode_encodeFrame :
    encode (.encodeFrame 0xC8 (.baroAltitude 0x2616 (-125)) 7) =
      .command [0x0E, 0xC8, 0x02, 0x26, 0x16, 0x83, 0x07] := by decide +kernel
theorem test_encode_frameBaroAlt :
    encode (.frameBaroAlt 0xC8 [0x88, 0xE5, 0x7D]) = .frame [0xC8, 0x05, 0x09, 0x88, 0xE5, 0x7D, 0xD3] := by decide +kernel

/-! ### Rejections by name -/

theorem test_reject_empty : decode (.command []) = .error .emptyCommand := by decide +kernel
theorem test_reject_op : decode (.command [0x10]) = .error .opTooWide := by decide +kernel
theorem test_reject_truncated : decode (.command [0x09, 0x00, 0x00]) = .error .truncated := by decide +kernel
theorem test_reject_trailing : decode (.command [0x03, 0x00]) = .error .trailingBytes := by decide +kernel
theorem test_reject_number : decode (.command [0x02, 0x80, 0x00]) = .error .numberNotCanonical := by decide +kernel
/-- U14: a channel of 2048. -/
theorem test_reject_channel :
    decode (.command ([0x05, 0x08, 0x00] ++ List.replicate 31 0)) = .error .channelTooWide := by decide +kernel
theorem test_reject_variant : decode (.command [0x0E, 0xC8, 0x04]) = .error .unknownVariant := by decide +kernel
/-- U15: 0x55 is no address. -/
theorem test_reject_destination :
    decode (.command [0x0E, 0x55, 0x02, 0, 0, 0, 7]) = .error .destinationNotAddress := by decide +kernel
theorem test_reject_record : decode (.command [0x0E, 0xC8, 0x03, 0x40, 0x00, 7]) = .error .recordNotRegistered := by
  decide +kernel
theorem test_reject_frame_size : decode (.frame [0xC8, 0x01, 0x00]) = .error .frameSize := by decide +kernel
theorem test_reject_frame_address : decode (.frame [0x55, 0x02, 0x3A, 0xA0]) = .error .frameAddress := by decide +kernel
theorem test_reject_frame_length : decode (.frame [0xC8, 0x03, 0x3A, 0xA0]) = .error .frameLengthByte := by decide +kernel
theorem test_reject_frame_crc : decode (.frame [0xC8, 0x02, 0x3A, 0xA1]) = .error .frameCrc := by decide +kernel

/-! ### WellFormed refuses an ill-formed term at each check -/

theorem smoke_destination :
    Instr.wellFormed params (.encodeFrame 0x55 (.baroAltitude 0 0) 7) = false := by decide +kernel
theorem smoke_record : Instr.wellFormed params (.encodeFrame 0xC8 (.extra 0x40 []) 7) = false := by decide +kernel
theorem smoke_frame_address : Instr.wellFormed params (.frameLinkstat 0x55 []) = false := by decide +kernel
theorem smoke_frame_payload : Instr.wellFormed params (.frameRcChannels 0xC8 (List.replicate 60 0)) = false := by
  decide +kernel
theorem smoke_frame_row_tag : Instr.wellFormed params (.frameNotImplemented 0xC8 0x14 []) = false := by decide +kernel
theorem smoke_frame_longest : Instr.wellFormed params (.frameBaroAlt 0xC8 (List.replicate 59 0)) = true := by decide +kernel

/-! ### The words of the opcode table -/

theorem test_word_push : decodeTableWord 8 0x1 = some (.pushByte 0) := by decide +kernel
theorem test_word_encodeFrame :
    decodeTableWord 8 0xE = some (.encodeFrame 0 (.linkStatistics (Vector.replicate 10 0)) 0) := by decide +kernel
theorem test_word_reserved : decodeTableWord 8 0xF = some .reserved0xF := by decide +kernel
theorem test_word_linkstat : decodeTableWord 8 0x14 = some (.frameLinkstat 0x00 []) := by decide +kernel
theorem test_word_rc : decodeTableWord 8 0x16 = some (.frameRcChannels 0x00 []) := by decide +kernel
theorem test_word_runs : (match step (State.reset.withFetchWord 8 0x14) with
    | .next t => t.answer
    | _ => none) = some (.error .invalidPayloadLength) := by decide +kernel

/-! ### Operations -/

/-- R91: 0xC8 starts a frame; V-FSM-4: 0x55 does not. -/
theorem test_push_sync : registersOf (.pushByte 0xC8) State.reset = some (.awaitingLength, 0, false) := by decide +kernel
theorem test_push_sync_rejected :
    answerOf (.pushByte 0x55) heldState = some (.error (.invalidSync 0x55)) ∧
      registersOf (.pushByte 0x55) heldState = some (.awaitingSync, 3, false) := by decide +kernel
/-- V-FSM-3d, V-FSM-3e, V-FSM-3f. -/
theorem test_push_length : registersOf (.pushByte 0x3D) lengthState = some (.reading, 1, false) := by decide +kernel
theorem test_push_length_rejected :
    answerOf (.pushByte 0x3E) lengthState = some (.error (.invalidPacketLength 0x3E)) ∧
      answerOf (.pushByte 0xFF) lengthState = some (.error (.invalidPacketLength 0xFF)) := by decide +kernel
/-- V-FSM-1: with an empty payload the type byte ends reading. -/
theorem test_push_reading : registersOf (.pushByte 0x3A) (readingState 3 [0xC8, 0x02]) = some (.awaitingCrc, 2, false) := by
  decide +kernel
theorem test_push_crc :
    answerOf (.pushByte 0xA0) crcState = some (.complete 4) ∧
      registersOf (.pushByte 0xA0) crcState = some (.awaitingSync, 3, true) := by decide +kernel
theorem test_push_crc_rejected :
    answerOf (.pushByte 0xA1) crcState = some (.error (.invalidCrc 0xA0 0xA1)) ∧
      registersOf (.pushByte 0xA1) crcState = some (.awaitingSync, 3, false) := by decide +kernel
/-- V-FSM-10. -/
theorem test_reset_abandons : registersOf .reset crcState = some (.awaitingSync, 0, false) := by decide +kernel
/-- V-DSP-10 and V-FSM-12. -/
theorem test_dispatch : answerOf .dispatch heldState = some (.packet (.notImplemented 0x3A 0)) := by decide +kernel
theorem test_dispatch_no_frame : answerOf .dispatch State.reset = some (.refused .noFrame) := by decide +kernel
/-- V-CRC-13, V-CRC-15. -/
theorem test_crc : answerOf (.crc8Digest [0x31, 0x32, 0x33, 0x34, 0x35, 0x36, 0x37, 0x38, 0x39]) State.reset =
    some (.crc 0xBC) := by decide +kernel
theorem test_crc_self_check :
    answerOf (.crc8Digest (scenario.drop 2)) State.reset = some (.crc 0x00) := by decide +kernel
/-- V-RC-1, V-RC-13, V-RC-15. -/
theorem test_rcDecode : answerOf (.rcDecode centreBytes) State.reset = some (.packet (.record (.rcChannels centre))) := by
  decide +kernel
theorem test_rcDecode_counting :
    rcUnpack [0, 1, 2, 3, 4, 5, 6, 7, 8, 9, 10, 11, 12, 13, 14, 15, 16, 17, 18, 19, 20, 21] =
      #v[256, 64, 12, 642, 96, 14, 578, 80, 1035, 417, 1080, 7, 273, 1572, 1284, 168] := by decide +kernel
theorem test_rcEncode : answerOf (.rcEncode centre 22) State.reset = some (.written 22 centreBytes) := by decide +kernel
theorem test_rcEncode_counting :
    rcPack #v[1, 2, 3, 4, 5, 6, 7, 8, 9, 10, 11, 12, 13, 14, 15, 16] =
      [0x01, 0x10, 0xC0, 0x00, 0x08, 0x50, 0x00, 0x03, 0x1C, 0x00, 0x01,
       0x09, 0x50, 0xC0, 0x02, 0x18, 0xD0, 0x00, 0x07, 0x3C, 0x00, 0x02] := by decide +kernel
/-- V-BARO-3. -/
theorem test_baroDecode : answerOf (.baroDecode [0x88, 0xE5, 0x83]) State.reset =
    some (.packet (.record (.baroAltitude 0x88E5 (-125)))) := by decide +kernel
theorem test_baroEncode : answerOf (.baroEncode 0xFFFF (-128) 3) State.reset = some (.written 3 [0xFF, 0xFF, 0x80]) := by
  decide +kernel
/-- V-ALT-11, R154's corner 0xFFFF. -/
theorem test_altUnpack : answerOf (.altUnpack 0xFFFF) State.reset = some (.altitudeDm 327670) := by decide +kernel
theorem test_altUnpack_low : answerOf (.altUnpack 0x0000) State.reset = some (.altitudeDm (-10000)) := by decide +kernel
/-- V-ALT-13, V-SRC-4b. -/
theorem test_altPack : answerOf (.altPack 22775) State.reset = some (.altitudePacked 0x88E6) := by decide +kernel
theorem test_altPack_top : answerOf (.altPack 2147483647) State.reset = some (.altitudePacked 0xFFFE) := by decide +kernel
/-- V-VS-30, V-VS-32. -/
theorem test_vsUnpack : answerOf (.vsUnpack 127) State.reset = some (.speed 2616) := by decide +kernel
theorem test_vsUnpack_nearest :
    vsUnpackValue sourceVsTables .nearest 127 = 2617 ∧ vsUnpackValue sourceVsTables .nearest (-128) = -2688 := by decide +kernel
/-- V-VS-8, V-VS-17. -/
theorem test_vsPack : answerOf (.vsPack 1669) State.reset = some (.vspeedPacked 110) := by decide +kernel
theorem test_vsPack_saturates : answerOf (.vsPack (-2653)) State.reset = some (.vspeedPacked (-128)) := by decide +kernel
/-- V-DSP-4: the eleventh byte is ignored. -/
theorem test_linkstatDecode : answerOf (.linkstatDecode [0, 1, 2, 3, 4, 5, 6, 7, 8, 9, 10]) State.reset =
    some (.packet (.record (.linkStatistics #v[0, 1, 2, 3, 4, 5, 6, 7, 8, 9]))) := by decide +kernel
theorem test_linkstatEncode_overflow :
    answerOf (.linkstatEncode scenarioFields 9) State.reset = some (.error .bufferOverflow) := by decide +kernel
/-- V-ENC-1, V-ENC-2. -/
theorem test_encodeFrame :
    answerOf (.encodeFrame 0xC8 (.linkStatistics scenarioFields) 14) State.reset = some (.written 14 scenario) := by
  decide +kernel
theorem test_encodeFrame_overflow :
    answerOf (.encodeFrame 0xC8 (.linkStatistics scenarioFields) 13) State.reset = some (.error .bufferOverflow) := by
  decide +kernel
theorem test_reserved : answerOf .reserved0xF heldState = some (.refused .illegalOp) := by decide +kernel
/-- V-DSP-1, V-DSP-6, V-DSP-8, V-DSP-9. -/
theorem test_frameLinkstat : answerOf (.frameLinkstat 0xC8 [16, 19, 99, 151, 1, 2, 3, 8, 88, 148]) State.reset =
    some (.packet (.record (.linkStatistics scenarioFields))) := by decide +kernel
theorem test_frameRcChannels : answerOf (.frameRcChannels 0xC8 (List.replicate 23 0xFF)) State.reset =
    some (.packet (.record (.rcChannels (Vector.replicate 16 2047)))) := by decide +kernel
theorem test_frameBaroAlt : answerOf (.frameBaroAlt 0xC8 [0x27, 0x10, 0x00, 0x55]) State.reset =
    some (.packet (.record (.baroAltitude 0x2710 0))) := by decide +kernel
theorem test_frameNotImplemented : answerOf (.frameNotImplemented 0xC8 0x28 [0xEA, 0xC8, 0x01, 0x02]) State.reset =
    some (.packet (.notImplemented 0x28 4)) := by decide +kernel
/-- R145's values. -/
theorem test_ticksToUs : ticksToUs 172 = 1975 / 2 ∧ ticksToUs 992 = 1500 := by
  decide +kernel
/-- R68: 0x28 is extended, 0x16 is not. -/
theorem test_isExtended : isExtended params 0x28 = true ∧ isExtended params 0x16 = false := by decide +kernel
/-- V-SEQ-4's first element and V-SEQ-1. -/
theorem test_parseBuffer_empty : parseBuffer params [] = [] := by decide +kernel
theorem test_parseBuffer_frame : parseBuffer params [0x55, 0xC8, 0x02, 0x3A, 0xA0] =
    [.error (.invalidSync 0x55), .packet (.notImplemented 0x3A 0)] := by decide +kernel

/-! ### Parameters other than the defaults -/

/-- FIXED_LEN_EXACT (V-DSP-4's second outcome). -/
theorem test_fixedLenExact :
    linkstatDecodeRecord { params with fixedLenExact := true } [0, 1, 2, 3, 4, 5, 6, 7, 8, 9, 10] =
      .error .invalidPayloadLength := by decide +kernel

/-- A codec for REGISTRY_EXTRA that decodes what it encodes: two bytes, unchanged. -/
def pairCodec : ExtraCodec where
  tag := 0x40
  minPayload := 2
  fixedSize := true
  decode := fun bs => some (bs.take 2)
  encode := fun fs => (fs ++ [0, 0]).take 2

theorem test_registryExtra :
    dispatchPayload { params with registryExtra := [pairCodec] } 0x40 [1, 2, 3] =
      .packet (.record (.extra 0x40 [1, 2])) := by decide +kernel

/-- The same codec with a content check that always fails (R131). -/
def failingCodec : ExtraCodec := { pairCodec with decode := fun _ => none }

theorem test_registryExtra_invalid :
    dispatchPayload { params with registryExtra := [failingCodec] } 0x40 [1, 2] = .error .invalidPayload ∧
      dispatchPayload { params with registryExtra := [failingCodec] } 0x40 [1] = .error .invalidPayloadLength := by
  decide +kernel

/-- Another legal build: frames of 5 to 39 bytes and an altitude payload of 4. -/
def otherBuild : Params := { params with minTotal := 5, maxTotalExcl := 40, encScratch := 30, baroPayload := 4 }

theorem test_otherBuild :
    (pushByteStep otherBuild 0x02 lengthState).2 = .error (.invalidPacketLength 0x02) ∧
      (pushByteStep otherBuild 0x26 lengthState).2 = .error (.invalidPacketLength 0x26) ∧
      (pushByteStep otherBuild 0x25 lengthState).2 = .incomplete ∧
      baroDecodeRecord otherBuild [1, 2, 3] = .error .invalidPayloadLength ∧
      (baroPack otherBuild 0x2710 0).take 3 = [0x27, 0x10, 0x00] ∧ (baroPack otherBuild 0x2710 0).length = 4 := by
  decide +kernel

/-! ### Witnesses: the hypotheses of each statement are met together -/

theorem witness_Inv_reset : Inv params State.reset :=
  ⟨by decide +kernel, fun h => nomatch h⟩
theorem witness_EveryStepKeepsTheInvariant :
    Inv params (issued (.command [0x01, 0xC8])) ∧ ∃ t, step (issued (.command [0x01, 0xC8])) = .next t :=
  ⟨⟨by decide +kernel, fun h => nomatch h⟩, _, rfl⟩
theorem witness_Inv_awaitingLength : Inv params lengthState :=
  ⟨by decide +kernel, (by decide +kernel : LengthRow params lengthState)⟩
theorem witness_Inv_reading_boundary : Inv params (readingState 3 [0xC8, 0x02]) :=
  ⟨by decide +kernel, (by decide +kernel : ReadingRow params (readingState 3 [0xC8, 0x02]))⟩
theorem witness_Inv_awaitingCrc : Inv params crcState :=
  ⟨by decide +kernel, (by decide +kernel : CrcRow params crcState)⟩
theorem witness_Inv_held : Inv params heldState :=
  ⟨by decide +kernel, fun _ => (by decide +kernel : HeldFrame params heldState)⟩
theorem witness_SizesOk : params.SizesOk ∧ otherBuild.SizesOk ∧ otherBuild.Ok := by decide +kernel
theorem witness_PushInAwaitingSync :
    State.reset.state = .awaitingSync ∧ (0xC8 : Byte) ∈ params.addrSet ∧ (0x55 : Byte) ∉ params.addrSet := by decide +kernel
theorem witness_PushInAwaitingLength :
    lengthState.state = .awaitingLength ∧ (2 ≤ (2 : Byte).toNat ∧ (2 : Byte).toNat ≤ 61) ∧
      (2 ≤ (61 : Byte).toNat ∧ (61 : Byte).toNat ≤ 61) ∧ (1 : Byte).toNat < 2 ∧ 61 < (62 : Byte).toNat := by decide +kernel
theorem witness_PushInReading :
    (readingState 62 [0xC8, 0x3D]).state = .reading ∧ (readingState 62 [0xC8, 0x3D]).cursor.toNat < 63 := by decide +kernel
theorem witness_PushInReading_last : { readingState 62 [0xC8, 0x3D] with cursor := 60 }.cursor.toNat + 2 =
    (readingState 62 [0xC8, 0x3D]).target.toNat := by decide +kernel
theorem witness_PushInAwaitingCrc :
    crcState.state = .awaitingCrc ∧ crcState.cursor.toNat < 63 ∧
      crc8 params.crcPoly (crcState.bufSlice 2 (crcState.cursor.toNat + 1)) = 0xA0 := by decide +kernel
theorem witness_ReadingTakesExactlyTypeAndPayload :
    (readingState 3 [0xC8, 0x02]).state = .reading ∧ (readingState 3 [0xC8, 0x02]).cursor = 1 ∧
      3 ≤ (readingState 3 [0xC8, 0x02]).target.toNat ∧ (readingState 3 [0xC8, 0x02]).target.toNat ≤ 62 ∧
      [(0x3A : Byte)].length + 2 ≤ (readingState 3 [0xC8, 0x02]).target.toNat := by decide +kernel
theorem witness_PushSetsFrameValidOnlyOnComplete : ∃ t, exec (.pushByte 0xA0) crcState = .next t := ⟨_, rfl⟩
theorem witness_FramingErrorsResynchronise :
    ∃ t, exec (.pushByte 0xA1) crcState = .next t ∧ t.answer = some (.error (.invalidCrc 0xA0 0xA1)) :=
  ⟨_, rfl, by decide +kernel⟩
theorem witness_FramingErrors_length :
    ∃ t, exec (.pushByte 0x01) lengthState = .next t ∧ t.answer = some (.error (.invalidPacketLength 0x01)) :=
  ⟨_, rfl, by decide +kernel⟩
theorem witness_FramingErrors_sync :
    ∃ t, exec (.pushByte 0x55) State.reset = .next t ∧ t.answer = some (.error (.invalidSync 0x55)) :=
  ⟨_, rfl, by decide +kernel⟩
theorem witness_ParserReturnsToSync :
    Inv params (readingState 3 [0xC8, 0x02]) ∧ (List.replicate 62 (0 : Byte)).length = 62 :=
  ⟨witness_Inv_reading_boundary, rfl⟩
theorem witness_RawFramePushedFromSyncCompletes :
    isRawFrame params [0xC8, 0x02, 0x3A, 0xA0] ∧ State.reset.state = .awaitingSync := by decide +kernel
/-- The longest frame, V-FSM-2. -/
theorem witness_RawFrame_longest :
    isRawFrame params ([0xC8, 0x3D, 0x7F] ++ (List.range 59).map (BitVec.ofNat 8) ++ [0x18]) := by decide +kernel
theorem witness_CompletedFramesAreRawFrames :
    Inv params crcState ∧ ∃ t, execWith params (.pushByte 0xA0) crcState = .next t ∧ t.answer = some (.complete 4) :=
  ⟨witness_Inv_awaitingCrc, _, rfl, by decide +kernel⟩
theorem witness_OnlyResetAndPushWriteTheRegisters :
    (∃ t, exec (.rcDecode []) State.reset = .next t) ∧ (Instr.rcDecode []) ≠ .reset ∧
      ∀ b, (Instr.rcDecode []) ≠ .pushByte b :=
  ⟨⟨_, rfl⟩, by simp, by simp⟩
theorem witness_OutputBytes_written :
    ∃ t, exec (.linkstatEncode scenarioFields 10) State.reset = .next t ∧
      t.answer = some (.written 10 scenarioFields.toList) :=
  ⟨_, rfl, by decide +kernel⟩
theorem witness_OutputBytes_none :
    ∃ t, exec (.linkstatEncode scenarioFields 9) State.reset = .next t ∧
      ∀ n bytes, t.answer ≠ some (.written n bytes) :=
  ⟨_, rfl, by intro n b h; cases h⟩
theorem witness_PresentableOperationsComplete :
    Instr.wellFormed params (.encodeFrame 0xC8 (.baroAltitude 0 0) 0) = true := by decide +kernel
theorem witness_SomeErrorKindsAreNeverReturned : ∃ t, exec (.baroDecode []) State.reset = .next t := ⟨_, rfl⟩
theorem witness_CrcAlgebraicLaws : [(1 : Byte), 2].length = [(3 : Byte), 4].length := rfl
/-- A Raw Frame for each clause: the three registered tags and an unregistered one. -/
theorem witness_DispatchSelectsTheCodecByTag :
    params.Ok ∧ isRawFrame params scenario ∧ scenario[2]? = some params.tagLinkstat ∧
      isRawFrame params [0xC8, 0x07, 0x16, 0, 0, 0, 0, 0, 0x86] ∧
      [(0xC8 : Byte), 0x07, 0x16, 0, 0, 0, 0, 0, 0x86][2]? = some params.tagRc ∧
      isRawFrame params [0xC8, 0x05, 0x09, 0x27, 0x10, 0x00, 0xB3] ∧
      [(0xC8 : Byte), 0x05, 0x09, 0x27, 0x10, 0x00, 0xB3][2]? = some params.tagBaro ∧
      isRawFrame params [0xC8, 0x02, 0x3A, 0xA0] ∧ (0x3A : Byte) ∉ params.tags := by decide +kernel
theorem witness_DispatchSelects_extra :
    Params.Ok { params with registryExtra := [pairCodec] } ∧ pairCodec ∈ [pairCodec] ∧
      isRawFrame { params with registryExtra := [pairCodec] } (rawFrame params 0xC8 0x40 [1, 2]) ∧
      (rawFrame params 0xC8 0x40 [1, 2])[2]? = some pairCodec.tag ∧
      (pairCodec.decode [1, 2]).isSome = true ∧ failingCodec.decode [1, 2] = none :=
  ⟨by decide +kernel, by simp, by decide +kernel, rfl, rfl, rfl⟩
theorem witness_DispatchDecodesTheHeldFrame :
    State.reset.frameValid = false ∧ heldState.frameValid = true ∧ 3 ≤ heldState.cursor.toNat := by decide +kernel
theorem witness_DispatchDecodes_repeated : ∃ t, exec .dispatch heldState = .next t := ⟨_, rfl⟩
theorem witness_DecodeLengthRule :
    (9 : Nat) < 10 ∧ (21 : Nat) < 22 ∧ 3 < otherBuild.baroPayload ∧ 3 ≤ otherBuild.baroPayload ∧
      ({ params with fixedLenExact := true } : Params).fixedLenExact = true ∧ (11 : Nat) ≠ 10 := by decide +kernel
theorem witness_LengthByte :
    params.SizesOk ∧ otherBuild.SizesOk ∧ lengthState.state = .awaitingLength ∧
      (0x01 : Byte).toNat + 2 < params.minTotal ∧ params.maxTotalExcl ≤ (0x3E : Byte).toNat + 2 ∧
      params.minTotal ≤ (0x02 : Byte).toNat + 2 ∧ (0x3D : Byte).toNat + 2 < params.maxTotalExcl := by decide +kernel
theorem witness_LengthErrors :
    lengthState.state = .awaitingLength ∧ (¬(4 ≤ (1 : Byte).toNat + 2 ∧ (1 : Byte).toNat + 2 < 64)) ∧
      (¬(4 ≤ (62 : Byte).toNat + 2 ∧ (62 : Byte).toNat + 2 < 64)) ∧
      ∃ t, exec (.pushByte 0x3E) lengthState = .next t ∧ t.answer = some (.error (.invalidPacketLength 0x3E)) :=
  ⟨rfl, by decide, by decide, _, rfl, by decide +kernel⟩
/-- A frame received with an encode and a refused DISPATCH in its middle. -/
theorem witness_InterleavedOperations :
    ∀ i ∈ [Instr.pushByte 0xC8, .encodeFrame 0xC8 (.baroAltitude 0 0) 7, .pushByte 0x02, .dispatch],
      i.wellFormed params = true ∧ i ≠ .reset := by decide +kernel
theorem witness_LinkstatDecodeOperation : ([] : List Byte).length < 10 ∧ 10 ≤ (List.replicate 10 (0 : Byte)).length := by
  decide +kernel
theorem witness_LinkstatRoundTrip : (List.replicate 10 (0 : Byte)).length = 10 ∧ 10 ≤ 10 := by decide +kernel
theorem witness_RcDecodeReadsTheBitStream :
    (List.replicate 21 (0 : Byte)).length < 22 ∧ 22 ≤ centreBytes.length := by decide +kernel
theorem witness_RcRoundTrip : centreBytes.length = 22 ∧ 22 ≤ 22 := by decide +kernel
theorem witness_BaroDecodeOperation : [(0 : Byte), 0].length < 3 ∧ 3 ≤ [(0 : Byte), 0, 0].length := by decide +kernel
theorem witness_BaroRoundTrip : [(0 : Byte), 0, 0].length = 3 ∧ 3 ≤ 3 := by decide +kernel
/-- The capacity boundaries of LinkstatEncodeOperation, RcEncodeWritesTheBitStream and BaroEncodeOperation. -/
theorem witness_EncodeCapacities : (9 : Nat) < 10 ∧ (10 : Nat) ≤ 10 ∧ (21 : Nat) < 22 ∧ (22 : Nat) ≤ 22 ∧ (2 : Nat) < 3 ∧
    (3 : Nat) ≤ 3 := by decide
theorem witness_AltUnpackOperation : (0x7FFF : BitVec 16).toNat < 0x8000 ∧ 0x8000 ≤ (0x8000 : BitVec 16).toNat := by
  decide +kernel
theorem witness_AltPackOperation :
    (-10001 : BitVec 32).toInt < -10000 ∧ -10000 ≤ (-10000 : BitVec 32).toInt ∧
      (22767 : BitVec 32).toInt < 22768 ∧ 22768 ≤ (22768 : BitVec 32).toInt := by decide +kernel
theorem witness_AltitudeRoundTripProperties :
    (-10001 : Int) < -10000 ∧ (327655 : Int) < 327656 ∧ (-10000 : Int) ≤ 22767 ∧ (-10000 : Int) ≤ -10000 ∧ (22768 : Int) ≤ 327655 ∧ (327655 : Int) < 327656 := by decide +kernel
theorem witness_VsTables : params.vsTables = sourceVsTables ∧ params.altOffsetDm ≤ 0x7FFF ∧ params.altMaxM ≤ 0x7FFF :=
  ⟨rfl, by decide, by decide⟩
theorem witness_VsPackIsOddAndMonotone : |(2652 : Int)| ≤ 2652 ∧ (128 : Nat) ≤ 128 := by decide +kernel
theorem witness_EncodeFrameOperation :
    (0xC8 : Byte) ∈ params.addrSet ∧ 13 < scenarioFields.toList.length + 4 ∧ scenarioFields.toList.length + 4 ≤ 14 := by
  decide +kernel
theorem witness_EncodedFramesAreRawFrames :
    ∃ t, execWith params (.encodeFrame 0xC8 (.linkStatistics scenarioFields) 14) State.reset = .next t ∧
      t.answer = some (.written 14 scenario) :=
  ⟨_, rfl, by decide +kernel⟩
theorem witness_EncodeFrameRefusesItsNonOperands :
    (0x55 : Byte) ∉ params.addrSet ∧ (0xC8 : Byte) ∈ params.addrSet ∧
      (Record.extra 0x40 []).registered params = false := by decide +kernel
/-- A record of an extra codec meets the hypotheses of the round trip as well. -/
theorem witness_EncodePushDispatchRoundTrip :
    Params.Ok { params with registryExtra := [pairCodec] } ∧
    (∀ c ∈ [pairCodec], ∀ fields, Record.extra 0x40 [1, 2] = .extra c.tag fields →
      c.minPayload ≤ (c.encode fields).length ∧ (c.fixedSize = true → (c.encode fields).length = c.minPayload) ∧
        c.decode (c.encode fields) = some fields) ∧
    ∃ t, execWith { params with registryExtra := [pairCodec] } (.encodeFrame 0xC8 (.extra 0x40 [1, 2]) 6) State.reset =
      .next t ∧ ∃ bytes, t.answer = some (.written 6 bytes) := by
  refine ⟨by decide +kernel, ?_, _, rfl, _, rfl⟩
  intro c hc fields hf
  obtain rfl := List.mem_singleton.1 hc
  injection hf with _ hf
  subst hf
  exact ⟨by decide +kernel, fun _ => rfl, rfl⟩
theorem witness_EncodePushDispatch_default :
    params.Ok ∧ params.registryExtra = [] ∧ State.reset.state = .awaitingSync := by decide +kernel
theorem witness_TwoFramesAmongGarbage :
    isRawFrame params [0xC8, 0x02, 0x3A, 0xA0] ∧ isRawFrame params [0xC8, 0x05, 0x09, 0x27, 0x10, 0x00, 0xB3] ∧
      dispatchFrame params [0xC8, 0x02, 0x3A, 0xA0] = .packet (.notImplemented 0x3A 0) ∧
      dispatchFrame params [0xC8, 0x05, 0x09, 0x27, 0x10, 0x00, 0xB3] =
        .packet (.record (.baroAltitude 0x2710 0)) ∧
      ∀ b ∈ [(0x55 : Byte), 0xAA] ++ [0x01, 0xFF] ++ [0x7E], b ∉ params.addrSet := by decide +kernel
theorem witness_CorruptedCrcGivesOneError : isRawFrame params scenario ∧ (0xFD : Byte) ≠ frameCrc scenario := by decide +kernel
theorem witness_WireTagRows : (0x28 : Byte) ≠ 0x14 ∧ (0x28 : Byte) ≠ 0x16 ∧ (0x28 : Byte) ≠ 0x09 := by decide +kernel
theorem witness_DecodeOfEncodeIsTheInstruction :
    params.Ok ∧ Instr.wellFormed params (.frameNotImplemented 0xC8 0x3A []) = true := by decide +kernel
theorem witness_AcceptedRequestsAreTheirEncoding : decodeWith params (.command [0x03]) = .ok .dispatch := by decide +kernel
theorem witness_StepRunsTheDecodedOperation :
    (issued (.command [0x03])).requests = .command [0x03] :: [] ∧ decode (.command [0x03]) = .ok .dispatch ∧
      decode (.command [0x10]) = .error .opTooWide ∧ State.reset.requests = [] := by decide +kernel

end Sys2Proof.Tests
end

/-! ## What an operation other than RESET and PUSH_BYTE can do -/

namespace Sys2Proof.Machine

/-- All that an operation other than RESET and PUSH_BYTE does to the state: it replies, or it writes output bytes and
reports exactly those (10_state.md R43, R129). -/
def RepliesOnly (s t : State) : Prop :=
  (∃ r, (∀ n bytes, r ≠ .written n bytes) ∧ t = s.reply r) ∨
    ∃ bytes, t = (s.outWrite bytes).reply (.written bytes.length bytes)

theorem repliesOnly_reply {s : State} {r : Result} (h : ∀ n bytes, r ≠ .written n bytes) :
    RepliesOnly s (s.reply r) :=
  .inl ⟨r, h, rfl⟩

theorem repliesOnly_deliver (cap : Nat) (bytes : List Byte) (s : State) :
    RepliesOnly s ((deliver cap bytes s).1.reply (deliver cap bytes s).2) := by
  rcases deliver_cases cap bytes s with ⟨-, e⟩ | ⟨-, e⟩ <;> rw [e]
  · exact repliesOnly_reply (by simp)
  · exact .inr ⟨bytes, rfl⟩

theorem repliesOnly_dispatchStep (p : Params) (s : State) :
    RepliesOnly s ((dispatchStep p s).1.reply (dispatchStep p s).2) := by
  unfold dispatchStep
  split
  · exact repliesOnly_reply (dispatchPayload_not_written p _ _)
  · exact repliesOnly_reply (by simp)

theorem repliesOnly_encodeFrameBytes (p : Params) (destination tag : Byte) (payload : List Byte) (cap : Nat)
    (s : State) :
    RepliesOnly s ((encodeFrameBytes p destination tag payload cap s).1.reply
      (encodeFrameBytes p destination tag payload cap s).2) := by
  unfold encodeFrameBytes
  split
  · exact repliesOnly_reply (by simp [raiseError])
  · exact repliesOnly_deliver _ _ _

theorem encodeFrameWith_repliesOnly {p : Params} {destination : Byte} {record : Record} {cap : Nat} {s t : State}
    (h : encodeFrameWith p destination record cap s = .next t) : RepliesOnly s t := by
  unfold encodeFrameWith at h
  split at h
  · split at h
    · cases h
    · rw [respond_eq_next h]
      exact repliesOnly_encodeFrameBytes _ _ _ _ _ _
  · cases h

/-- What every operation of a build can do, said once. -/
theorem execWith_cases {p : Params} {i : Instr} {s t : State} (h : execWith p i s = .next t) :
    (i = .reset ∧ t = (resetStep s).1.reply (resetStep s).2) ∨
    (∃ b, i = .pushByte b ∧ t = (pushByteStep p b s).1.reply (pushByteStep p b s).2) ∨
    (i ≠ .reset ∧ (∀ b, i ≠ .pushByte b) ∧ RepliesOnly s t) := by
  cases i with
  | reset => exact .inl ⟨rfl, respond_eq_next h⟩
  | pushByte b => exact .inr (.inl ⟨b, rfl, respond_eq_next h⟩)
  | encodeFrame destination record cap =>
    exact .inr (.inr ⟨by simp, by simp, encodeFrameWith_repliesOnly h⟩)
  | dispatch =>
    rw [respond_eq_next h]
    exact .inr (.inr ⟨by simp, by simp, repliesOnly_dispatchStep p s⟩)
  | rcEncode | baroEncode | linkstatEncode =>
    rw [respond_eq_next h]
    exact .inr (.inr ⟨by simp, by simp, repliesOnly_deliver _ _ s⟩)
  | rcDecode | baroDecode | linkstatDecode =>
    rw [respond_eq_next h]
    exact .inr (.inr ⟨by simp, by simp, repliesOnly_reply (decodeResult_not_written _)⟩)
  | frameLinkstat | frameRcChannels | frameBaroAlt | frameNotImplemented =>
    rw [respond_eq_next h]
    exact .inr (.inr ⟨by simp, by simp, repliesOnly_reply (dispatchPayload_not_written p _ _)⟩)
  | crc8Digest | altUnpack | altPack | vsUnpack | vsPack | reserved0xF =>
    rw [respond_eq_next h]
    exact .inr (.inr ⟨by simp, by simp, repliesOnly_reply (by simp)⟩)

/-- A step that answers a next state waits, or runs the operation its oldest request decodes to (20_memory.md R46,
40_frame_fsm.md R100). -/
theorem serve_cases {dec : Request → Except Reject Instr}
    {run : Instr → State → Host.Outcome State Fault Refusal} {s t : State} (h : serve dec run s = .next t) :
    (s.requests = [] ∧ t = s) ∨
    ∃ r rest i, s.requests = r :: rest ∧ dec r = .ok i ∧ run i { s with requests := rest } = .next t := by
  unfold serve at h
  split at h
  next hr => cases h; exact .inl ⟨hr, rfl⟩
  next r rest hr =>
    split at h
    next => cases h
    next i hi => exact .inr ⟨r, rest, i, hr, hi, h⟩

/-! ### The default build -/

theorem exec_eq_execWith (i : Instr) (s : State) : exec i s = execWith params i s := by
  cases i <;> rfl

theorem step_eq_stepWith (s : State) : step s = stepWith params s := by
  have hexec : exec = execWith params := funext fun i => funext (exec_eq_execWith i)
  rw [step, hexec]
  rfl

/-- The next state of a PUSH_BYTE in the default build. -/
theorem eq_of_exec_pushByte {b : Byte} {s t : State} (h : exec (.pushByte b) s = .next t) :
    t = (pushByteStep params b s).1.reply (pushByteStep params b s).2 :=
  respond_eq_next h

/-! ### The cursor's increment and the appended byte -/

theorem toNat_cursor_succ {s : State} (h : s.cursor.toNat < 63) : (s.cursor + 1).toNat = s.cursor.toNat + 1 := by
  bv_omega

/-- The append of a PUSH_BYTE, below the end of `buf`, leaves every byte up to the cursor. -/
theorem bufRead_appendByte_of_le {s : State} (h : s.cursor.toNat < 63) (b : Byte) {x : Nat}
    (hx : x ≤ s.cursor.toNat) : (appendByte b s.invalidateFrame).bufRead x = s.bufRead x := by
  rw [bufRead_appendByte, State.invalidateFrame_cursor, toNat_cursor_succ h, if_neg (by omega),
    bufRead_invalidateFrame]

/-- The byte an append leaves at the new cursor. -/
theorem bufRead_appendByte_cursor (b : Byte) (s : State) : (appendByte b s).bufRead (s.cursor + 1).toNat = b := by
  rw [bufRead_appendByte, if_pos rfl]

end Sys2Proof.Machine

/-! ## The invariant of 10_state.md R31 -/

namespace Sys2Proof.Safety

open Machine

variable {p : Params} {s t : State}

/-! ### The rows of the table, by state -/

theorem stateRow_awaitingSync (h : s.state = .awaitingSync) :
    StateRow p s ↔ (s.frameValid = true → HeldFrame p s) := by rw [StateRow, h]

theorem stateRow_awaitingLength (h : s.state = .awaitingLength) : StateRow p s ↔ LengthRow p s := by
  rw [StateRow, h]

theorem stateRow_reading (h : s.state = .reading) : StateRow p s ↔ ReadingRow p s := by rw [StateRow, h]

theorem stateRow_awaitingCrc (h : s.state = .awaitingCrc) : StateRow p s ↔ CrcRow p s := by rw [StateRow, h]

/-- In awaiting-sync with no frame held, R31 asks for the storage only. -/
theorem inv_of_sync_unheld (hst : s.state = .awaitingSync) (hfv : s.frameValid = false) (hs : StorageOk s) :
    Inv p s :=
  ⟨hs, (stateRow_awaitingSync hst).2 fun h => by simp [hfv] at h⟩

/-! ### What the storage operations keep -/

theorem written_store {n : Nat} {b : Byte} (h : t.buf = s.buf.store n b) (hw : Written s n) :
    Written t (n + 1) := by
  intro i hi
  rw [h, Memory.byteAt_store]
  split
  · rfl
  · exact hw i (by omega)

/-- A write inside `buf` that leaves the cursor at most 62 keeps the storage well formed. -/
theorem storageOk_store {a : Nat} {b : Byte} (hs : StorageOk s) (ha : a < 64) (hbuf : t.buf = s.buf.store a b)
    (hout : t.outBuffer = s.outBuffer) (hcur : t.cursor.toNat ≤ 62) : StorageOk t := by
  obtain ⟨hwf, hidx, houtwf, -⟩ := hs
  refine ⟨hbuf ▸ Memory.wf_store hwf a b, fun c hc => ?_, hout ▸ houtwf, hcur⟩
  rw [hbuf] at hc
  rcases Memory.mem_store hc with rfl | hc
  · exact ha
  · exact hidx c hc

/-- With nothing stored in `buf`, the storage is well formed. -/
theorem storageOk_empty (hbuf : s.buf = []) (hout : s.outBuffer.wf) (hcur : s.cursor = 0) : StorageOk s :=
  ⟨by simp [hbuf], by simp [hbuf], hout, by simp [hcur]⟩

theorem storageOk_appendByte (b : Byte) (hs : StorageOk s) (hc : s.cursor.toNat ≤ 61) :
    StorageOk (appendByte b s) :=
  storageOk_store hs (s.cursor + 1).isLt rfl rfl (by
    rw [appendByte_cursor, toNat_cursor_succ (by omega)]
    omega)

theorem written_appendByte (b : Byte) (hc : s.cursor.toNat ≤ 61) (hw : Written s (s.cursor.toNat + 1)) :
    Written (appendByte b s) ((s.cursor + 1).toNat + 1) :=
  written_store rfl (by rwa [toNat_cursor_succ (by omega)])

/-! ### PUSH_BYTE keeps the invariant, rule by rule -/

/-- R91: an accepted address byte begins a frame. -/
theorem inv_acceptAddress {b : Byte} (hs : StorageOk s) (hb : b ∈ p.addrSet) :
    Inv p (((s.invalidateFrame.setCursor 0).bufWrite 0 b).enter .awaitingLength) := by
  refine ⟨storageOk_store hs (a := 0) (b := b) (by omega) rfl rfl (by simp), (stateRow_awaitingLength rfl).2 ?_⟩
  refine ⟨rfl, ?_, rfl, ?_⟩
  · simpa [bufRead_bufWrite] using hb
  · exact written_store (n := 0) rfl fun _ hi => absurd hi (Nat.not_lt_zero _)

/-- R93: an accepted length byte sets the target. -/
theorem inv_acceptLength {b : Byte} (hp : p.SizesOk) (hs : StorageOk s) (hrow : LengthRow p s)
    (hmin : p.minTotal ≤ b.toNat + 2) (hmax : b.toNat + 2 < p.maxTotalExcl) :
    Inv p ((((s.invalidateFrame.setCursor (s.cursor + 1)).bufWrite 1 b).setTarget
      (BitVec.ofNat 6 (b.toNat + 1))).enter .reading) := by
  obtain ⟨hfour, hcap, -⟩ := hp
  obtain ⟨hcur, haddr, -, hw⟩ := hrow
  have hcap' : p.maxTotalExcl ≤ 64 := hcap
  have htarget : (BitVec.ofNat 6 (b.toNat + 1)).toNat = b.toNat + 1 := by
    rw [BitVec.toNat_ofNat]
    omega
  have hcur' : (s.cursor + 1).toNat = 1 := by rw [hcur]; rfl
  refine ⟨storageOk_store hs (a := 1) (b := b) (by omega) rfl rfl (by simp [hcur]), (stateRow_reading rfl).2 ?_⟩
  refine ⟨?_, ?_, ?_, ?_, ?_, rfl, ?_⟩
  · simpa [htarget] using And.intro hmin hmax
  · simp [bufRead_bufWrite, htarget]
  · simp [hcur]
  · simp only [State.enter_cursor, State.setTarget_cursor, State.bufWrite_cursor, State.setCursor_cursor,
      State.enter_target, State.setTarget_target, hcur', htarget]
    omega
  · simpa [bufRead_bufWrite] using haddr
  · exact written_store (n := (s.cursor + 1).toNat) (b := b) (by rw [hcur']; rfl) (by rwa [hcur'])

/-- While reading, the cursor leaves room for a byte of the frame and its CRC byte. -/
theorem ReadingRow.cursor_le (hp : p.SizesOk) (hrow : ReadingRow p s) : s.cursor.toNat ≤ 60 := by
  obtain ⟨-, hcap, -⟩ := hp
  obtain ⟨⟨-, hmax⟩, -, -, hlt, -⟩ := hrow
  have hcap' : p.maxTotalExcl ≤ 64 := hcap
  omega

/-- R94, not yet at the target: the append keeps the row. -/
theorem inv_appendReading {b : Byte} (hp : p.SizesOk) (hst : s.state = .reading) (hs : StorageOk s)
    (hrow : ReadingRow p s) (hne : (s.cursor + 1).toNat + 1 ≠ s.target.toNat) :
    Inv p (appendByte b s.invalidateFrame) := by
  have hle := ReadingRow.cursor_le hp hrow
  obtain ⟨hsize, hlen, hone, hlt, haddr, -, hw⟩ := hrow
  have hcur : (s.cursor + 1).toNat = s.cursor.toNat + 1 := toNat_cursor_succ (by omega)
  refine ⟨storageOk_appendByte b hs (by simp; omega), (stateRow_reading (s := appendByte b s.invalidateFrame) hst).2 ?_⟩
  refine ⟨hsize, ?_, ?_, ?_, ?_, rfl, written_appendByte b (by simp; omega) hw⟩
  · rwa [bufRead_appendByte_of_le (by omega) b hone]
  · rw [appendByte_cursor, State.invalidateFrame_cursor, hcur]
    omega
  · simp only [appendByte_cursor, appendByte_target, State.invalidateFrame_cursor, State.invalidateFrame_target]
    omega
  · rwa [bufRead_appendByte_of_le (by omega) b (by omega)]

/-- R94, at the target: the last byte before the CRC leads to the row of `AwaitingCrc`. -/
theorem inv_appendLast {b : Byte} (hp : p.SizesOk) (hs : StorageOk s) (hrow : ReadingRow p s)
    (heq : (s.cursor + 1).toNat + 1 = s.target.toNat) :
    Inv p ((appendByte b s.invalidateFrame).enter .awaitingCrc) := by
  have hle := ReadingRow.cursor_le hp hrow
  obtain ⟨⟨hmin, hmax⟩, hlen, hone, -, haddr, -, hw⟩ := hrow
  refine ⟨storageOk_appendByte b hs (by simp; omega), (stateRow_awaitingCrc rfl).2 ?_⟩
  refine ⟨?_, ?_, ?_, rfl, written_appendByte b (by simp; omega) hw⟩
  · rw [bufRead_enter, bufRead_appendByte_of_le (by omega) b hone]
    simp only [State.enter_cursor, appendByte_cursor, State.invalidateFrame_cursor]
    omega
  · simp only [State.enter_cursor, appendByte_cursor, State.invalidateFrame_cursor]
    exact ⟨by omega, by omega⟩
  · rwa [bufRead_enter, bufRead_appendByte_of_le (by omega) b (by omega)]

/-- Awaiting the CRC byte, the cursor is past the header and leaves room for that byte. -/
theorem CrcRow.cursor_mem (hp : p.SizesOk) (hrow : CrcRow p s) : 2 ≤ s.cursor.toNat ∧ s.cursor.toNat ≤ 61 := by
  obtain ⟨hfour, hcap, -⟩ := hp
  obtain ⟨-, ⟨hmin, hmax⟩, -⟩ := hrow
  have hcap' : p.maxTotalExcl ≤ 64 := hcap
  omega

/-- R95, the CRC byte agrees: the buffer holds a CRC-checked frame. -/
theorem inv_complete {b : Byte} (hp : p.SizesOk) (hs : StorageOk s) (hrow : CrcRow p s)
    (hcrc : frameDigest p ((appendByte b s.invalidateFrame).bufSlice 2 (s.cursor + 1).toNat) = b) :
    Inv p ((appendByte b s.invalidateFrame).enter .awaitingSync).validateFrame := by
  obtain ⟨htwo, hle⟩ := CrcRow.cursor_mem hp hrow
  obtain ⟨hlen, hsize, haddr, -, hw⟩ := hrow
  have hcur : (s.cursor + 1).toNat = s.cursor.toNat + 1 := toNat_cursor_succ (by omega)
  refine ⟨storageOk_appendByte b hs hle, (stateRow_awaitingSync rfl).2 fun _ => ?_⟩
  refine ⟨?_, ?_, ?_, ?_, written_appendByte b hle hw⟩
  · rw [bufRead_validateFrame, bufRead_enter, bufRead_appendByte_of_le (by omega) b (by omega), ← hlen]
    exact hcur
  · rwa [bufRead_validateFrame, bufRead_enter, bufRead_appendByte_of_le (by omega) b (by omega)]
  · rwa [bufRead_validateFrame, bufRead_enter, bufRead_appendByte_of_le (by omega) b (by omega), ← hlen]
  · exact (bufRead_appendByte_cursor b s.invalidateFrame).trans hcrc.symm

theorem inv_pushByteStep (hp : p.SizesOk) (b : Byte) (h : Inv p s) : Inv p (pushByteStep p b s).1 := by
  obtain ⟨hs, hrow⟩ := h
  rcases pushByteStep_cases p b s with
    ⟨-, hb, e⟩ | ⟨hst, -, e⟩ | ⟨hst, hmin, hmax, e⟩ | ⟨-, -, e⟩ | ⟨hst, hne, e⟩ | ⟨hst, heq, e⟩ |
    ⟨hst, hcrc, e⟩ | ⟨hst, -, e⟩ <;> rw [e]
  · exact inv_acceptAddress hs hb
  · exact inv_of_sync_unheld hst rfl hs
  · exact inv_acceptLength hp hs ((stateRow_awaitingLength hst).1 hrow) hmin hmax
  · exact inv_of_sync_unheld rfl rfl hs
  · exact inv_appendReading hp hst hs ((stateRow_reading hst).1 hrow) hne
  · exact inv_appendLast hp hs ((stateRow_reading hst).1 hrow) heq
  · exact inv_complete hp hs ((stateRow_awaitingCrc hst).1 hrow) hcrc
  · have hcur := CrcRow.cursor_mem hp ((stateRow_awaitingCrc hst).1 hrow)
    exact inv_of_sync_unheld rfl rfl (storageOk_appendByte b hs hcur.2)

/-! ### The other operations and the step -/

theorem inv_resetStep (h : Inv p s) : Inv p (resetStep s).1 := by
  obtain ⟨⟨-, -, hout, -⟩, -⟩ := h
  exact inv_of_sync_unheld rfl rfl (storageOk_empty rfl hout rfl)

/-- No row reads the latest result. -/
theorem inv_reply (r : Result) : Inv p (s.reply r) ↔ Inv p s := Iff.rfl

/-- No row reads the requests. -/
theorem inv_withRequests (rs : List Request) : Inv p { s with requests := rs } ↔ Inv p s := Iff.rfl

theorem inv_outWrite (bytes : List Byte) (h : Inv p s) : Inv p (s.outWrite bytes) := by
  obtain ⟨⟨hwf, hidx, hout, hcur⟩, hrow⟩ := h
  exact ⟨⟨hwf, hidx, Memory.wf_storeAll hout 0 bytes, hcur⟩, hrow⟩

theorem inv_of_repliesOnly (h : Inv p s) (hr : RepliesOnly s t) : Inv p t := by
  rcases hr with ⟨r, -, rfl⟩ | ⟨bytes, rfl⟩
  · exact (inv_reply r).2 h
  · exact (inv_reply _).2 (inv_outWrite bytes h)

theorem inv_execWith {i : Instr} (hp : p.SizesOk) (h : Inv p s) (he : execWith p i s = .next t) : Inv p t := by
  rcases execWith_cases he with ⟨-, rfl⟩ | ⟨b, -, rfl⟩ | ⟨-, -, hr⟩
  · exact (inv_reply _).2 (inv_resetStep h)
  · exact (inv_reply _).2 (inv_pushByteStep hp b h)
  · exact inv_of_repliesOnly h hr

theorem inv_stepWith (hp : p.SizesOk) (h : Inv p s) (he : stepWith p s = .next t) : Inv p t := by
  rcases serve_cases he with ⟨-, rfl⟩ | ⟨r, rest, i, -, -, hrun⟩
  · exact h
  · exact inv_execWith hp ((inv_withRequests rest).2 h) hrun

end Sys2Proof.Safety

/-! ## The obligations on the state -/

namespace Sys2Proof.Proofs

open Machine Safety

/-- Settles O4: the invariant goes through the operation that the step runs. -/
theorem everyStepKeepsTheInvariant : Obligations.EveryStepKeepsTheInvariant := by
  have sizes : params.SizesOk := by decide
  refine ⟨fun p s t hp h he => inv_stepWith hp h he, fun s t h he => inv_stepWith sizes h ?_⟩
  rwa [← step_eq_stepWith]

/-- Settles O11, by the eight rows of PUSH_BYTE's table: the prologue clears `frame_valid`, and only the row that
answers `Complete` sets it. -/
theorem pushSetsFrameValidOnlyOnComplete : Obligations.PushSetsFrameValidOnlyOnComplete := by
  intro s t b h
  rw [eq_of_exec_pushByte h]
  rcases pushByteStep_cases params b s with
    ⟨-, -, e⟩ | ⟨-, -, e⟩ | ⟨-, -, -, e⟩ | ⟨-, -, e⟩ | ⟨-, -, e⟩ | ⟨-, -, e⟩ | ⟨-, -, e⟩ | ⟨-, -, e⟩ <;>
    simp [e]

/-- Settles O19: such an operation only replies, with or without output bytes. -/
theorem onlyResetAndPushWriteTheRegisters : Obligations.OnlyResetAndPushWriteTheRegisters := by
  intro i s t h hreset hpush
  rw [exec_eq_execWith] at h
  rcases execWith_cases h with ⟨hi, -⟩ | ⟨b, hi, -⟩ | ⟨-, -, hr⟩
  · exact absurd hi hreset
  · exact absurd hi (hpush b)
  · rcases hr with ⟨r, -, rfl⟩ | ⟨bytes, rfl⟩ <;> exact ⟨rfl, rfl, rfl, rfl, rfl, rfl, rfl⟩

/-- Settles O1: nothing is held and nothing is stored at power-on. -/
theorem powerOnStateSatisfiesR31 : Obligations.PowerOnStateSatisfiesR31 := fun _ =>
  ⟨rfl, rfl, rfl, inv_of_sync_unheld rfl rfl (storageOk_empty rfl List.Pairwise.nil rfl)⟩

/-- Settles O60, one operation at a time. -/
theorem execAndStepAreTheDefaultBuild : Obligations.ExecAndStepAreTheDefaultBuild :=
  ⟨exec_eq_execWith, step_eq_stepWith⟩

end Sys2Proof.Proofs

/-! ## The step, case by case -/

namespace Sys2Proof.Machine

/-! `serve`, from what the oldest request is to what the step answers; `serve_cases` goes the other way. -/

section Serve

variable {dec : Request → Except Reject Instr} {run : Instr → State → Host.Outcome State Fault Refusal} {s : State}

theorem serve_of_no_request (h : s.requests = []) : serve dec run s = .next s := by
  simp only [serve, h]

theorem serve_of_decoded {r : Request} {rest : List Request} {i : Instr} (h : s.requests = r :: rest)
    (hi : dec r = .ok i) : serve dec run s = run i { s with requests := rest } := by
  simp only [serve, h, hi]

theorem serve_of_rejected {r : Request} {rest : List Request} {e : Reject} (h : s.requests = r :: rest)
    (he : dec r = .error e) : serve dec run s = .refused (.illFormedRequest e) := by
  simp only [serve, h, he]

end Serve

/-! ## What the parser reads and writes -/

/-- The part of a state that PUSH_BYTE reads and writes: the registers and `buf` (10_state.md R21, R22), and the
number of the reset that `buf`'s free bytes belong to. What the host sees or queues is blanked. -/
def State.parserPart (s : State) : State := { s with outBuffer := [], answer := none, requests := [] }

theorem State.registers_eq_of_parserPart_eq {s t : State} (h : s.parserPart = t.parserPart) :
    s.state = t.state ∧ s.target = t.target ∧ s.cursor = t.cursor ∧ s.frameValid = t.frameValid ∧ s.buf = t.buf :=
  ⟨congrArg (·.state) h, congrArg (·.target) h, congrArg (·.cursor) h, congrArg (·.frameValid) h,
    congrArg (·.buf) h⟩

theorem RepliesOnly.parserPart_eq {s t : State} (h : RepliesOnly s t) : t.parserPart = s.parserPart := by
  rcases h with ⟨r, -, rfl⟩ | ⟨bytes, rfl⟩ <;> rfl

/-! Each rule of PUSH_BYTE branches on a condition over the parser's part, so blanking the rest of the state passes
through its two branches. -/

section Push

variable (p : Params) (b : Byte) (s : State)

theorem pushAwaitingSync_parserPart :
    pushAwaitingSync p b s.parserPart = Prod.map State.parserPart id (pushAwaitingSync p b s) := by
  rw [pushAwaitingSync, pushAwaitingSync, apply_ite (Prod.map State.parserPart id)]
  rfl

theorem pushAwaitingLength_parserPart :
    pushAwaitingLength p b s.parserPart = Prod.map State.parserPart id (pushAwaitingLength p b s) := by
  rw [pushAwaitingLength, pushAwaitingLength, apply_ite (Prod.map State.parserPart id)]
  rfl

theorem pushReading_parserPart : pushReading b s.parserPart = Prod.map State.parserPart id (pushReading b s) := by
  rw [pushReading, pushReading, apply_ite (Prod.map State.parserPart id)]
  rfl

theorem pushAwaitingCrc_parserPart :
    pushAwaitingCrc p b s.parserPart = Prod.map State.parserPart id (pushAwaitingCrc p b s) := by
  rw [pushAwaitingCrc, pushAwaitingCrc, apply_ite (Prod.map State.parserPart id)]
  rfl

/-- PUSH_BYTE reads nothing but the parser's part: blanking the rest of the state first changes neither its result
nor the parser's part it leaves. -/
theorem pushByteStep_parserPart :
    pushByteStep p b s.parserPart = Prod.map State.parserPart id (pushByteStep p b s) := by
  have hst : s.parserPart.state = s.state := rfl
  unfold pushByteStep
  rw [hst]
  cases s.state with
  | awaitingSync => exact pushAwaitingSync_parserPart p b s.invalidateFrame
  | awaitingLength => exact pushAwaitingLength_parserPart p b s.invalidateFrame
  | reading => exact pushReading_parserPart b s.invalidateFrame
  | awaitingCrc => exact pushAwaitingCrc_parserPart p b s.invalidateFrame

end Push

/-- Two states with the same parser's part answer a pushed byte alike and stay alike. -/
theorem pushByteStep_congr {s t : State} (p : Params) (b : Byte) (h : s.parserPart = t.parserPart) :
    (pushByteStep p b s).1.parserPart = (pushByteStep p b t).1.parserPart ∧
      (pushByteStep p b s).2 = (pushByteStep p b t).2 := by
  have hmap : Prod.map State.parserPart id (pushByteStep p b s) =
      Prod.map State.parserPart id (pushByteStep p b t) := by
    rw [← pushByteStep_parserPart, ← pushByteStep_parserPart, h]
  exact Prod.mk.inj hmap

/-! ## Operations that a host can present complete -/

theorem encodeFrameWith_completes {p : Params} {destination : Byte} {record : Record}
    (hd : p.addrSet.contains destination = true) (hr : record.registered p = true) (cap : Nat) (s : State) :
    ∃ t r, encodeFrameWith p destination record cap s = .next t ∧ t.answer = some r := by
  rcases encodePayload_cases p record with ⟨-, ⟨tag, payload⟩, hx⟩ | ⟨hr', -⟩
  · rw [encodeFrameWith, if_pos (by simpa using hd), hx]
    exact ⟨_, _, rfl, rfl⟩
  · rw [hr] at hr'
    cases hr'

/-- A presentable operation answers a next state that holds its result (60_exceptions.md R197); only ENCODE_FRAME has
operands outside its precondition, and they are not presentable (30_encoding.md R74). -/
theorem execWith_completes {p : Params} {i : Instr} (h : i.wellFormed p = true) (s : State) :
    ∃ t r, execWith p i s = .next t ∧ t.answer = some r := by
  cases i with
  | encodeFrame destination record cap =>
    obtain ⟨hd, hr⟩ := Bool.and_eq_true_iff.1 h
    exact encodeFrameWith_completes hd hr cap s
  | reset | pushByte | crc8Digest | dispatch | rcDecode | rcEncode | baroDecode | baroEncode | altUnpack | altPack
  | vsUnpack | vsPack | linkstatDecode | linkstatEncode | reserved0xF | frameLinkstat | frameRcChannels | frameBaroAlt
  | frameNotImplemented => exact ⟨_, _, rfl, rfl⟩

/-! ## Traces with other operations between the pushes -/

theorem pushedByte_eq_none {i : Instr} (h : ∀ b, i ≠ .pushByte b) : pushedByte i = none := by
  cases i with
  | pushByte b => exact absurd rfl (h b)
  | reset | crc8Digest | dispatch | rcDecode | rcEncode | baroDecode | baroEncode | altUnpack | altPack | vsUnpack
  | vsPack | linkstatDecode | linkstatEncode | encodeFrame | reserved0xF | frameLinkstat | frameRcChannels
  | frameBaroAlt | frameNotImplemented => rfl

/-- The results, among those of a trace, that belong to its PUSH_BYTEs. -/
def pushResults (is : List Instr) (rs : List Result) : List Result :=
  ((is.zip rs).filter fun x => (pushedByte x.1).isSome).map Prod.snd

@[simp] theorem pushResults_nil (rs : List Result) : pushResults [] rs = [] := rfl

@[simp] theorem pushResults_cons_pushByte (b : Byte) (is : List Instr) (r : Result) (rs : List Result) :
    pushResults (.pushByte b :: is) (r :: rs) = r :: pushResults is rs := rfl

theorem pushResults_cons_of_not_push {i : Instr} (h : pushedByte i = none) (is : List Instr) (r : Result)
    (rs : List Result) : pushResults (i :: is) (r :: rs) = pushResults is rs := by
  simp [pushResults, h]

/-- A presentable operation of a trace contributes one result. -/
theorem trace_length {p : Params} {is : List Instr} (h : ∀ i ∈ is, i.wellFormed p = true) (s : State) :
    (trace p is s).2.length = is.length := by
  induction is generalizing s with
  | nil => rfl
  | cons i is ih =>
    obtain ⟨hi, his⟩ := List.forall_mem_cons.1 h
    obtain ⟨t, r, ht, hr⟩ := execWith_completes hi s
    simp [trace_cons_next ht, hr, ih his]

/-- Without RESET, a trace leaves the parser where its pushes alone would, and they give the same results. The two
runs start in states that agree on the parser's part only, because the other operations' replies and output bytes
remain in the first. -/
theorem trace_parserPart {p : Params} {is : List Instr} (h : ∀ i ∈ is, i.wellFormed p = true ∧ i ≠ .reset)
    {s s' : State} (hs : s.parserPart = s'.parserPart) :
    pushResults is (trace p is s).2 = (pushBytes p (is.filterMap pushedByte) s').2 ∧
      (trace p is s).1.parserPart = (pushBytes p (is.filterMap pushedByte) s').1.parserPart := by
  induction is generalizing s s' with
  | nil => exact ⟨pushResults_nil _, hs⟩
  | cons i is ih =>
    obtain ⟨⟨hwf, hreset⟩, his⟩ := List.forall_mem_cons.1 h
    obtain ⟨t, r, ht, hr⟩ := execWith_completes hwf s
    rw [trace_cons_next ht, hr]
    rcases execWith_cases ht with ⟨hi, -⟩ | ⟨b, rfl, rfl⟩ | ⟨-, hpush, hreply⟩
    · exact absurd hi hreset
    · obtain ⟨hpart, hres⟩ := pushByteStep_congr p b hs
      obtain ⟨hresults, hend⟩ := ih his (s := (pushByteStep p b s).1.reply (pushByteStep p b s).2)
        (s' := (pushByteStep p b s').1.reply (pushByteStep p b s').2) hpart
      have hr' : (pushByteStep p b s).2 = r := Option.some.inj hr
      rw [List.filterMap_cons_some (f := pushedByte) rfl, pushBytes_cons]
      exact ⟨(pushResults_cons_pushByte b is r _).trans (congrArg₂ List.cons (hr'.symm.trans hres) hresults), hend⟩
    · have hnone := pushedByte_eq_none hpush
      rw [List.filterMap_cons_none hnone]
      obtain ⟨hresults, hend⟩ := ih his (hreply.parserPart_eq.trans hs)
      exact ⟨(pushResults_cons_of_not_push hnone is r _).trans hresults, hend⟩

end Sys2Proof.Machine

/-! ## The obligations on sequences of operations -/

namespace Sys2Proof.Proofs

open Machine

/-- Settles O18: each presentable operation gives a result, and those that push no byte leave the parser's part. -/
theorem interleavedOperationsDoNotDisturbTheParser : Obligations.InterleavedOperationsDoNotDisturbTheParser := by
  intro p is s h
  obtain ⟨hresults, hend⟩ := trace_parserPart h (rfl : s.parserPart = s.parserPart)
  exact ⟨trace_length (fun i hi => (h i hi).1) s, hresults, State.registers_eq_of_parserPart_eq hend⟩

/-- Settles O59, by what the queue of requests holds. -/
theorem stepRunsTheDecodedOperation : Obligations.StepRunsTheDecodedOperation := fun _ =>
  ⟨serve_of_no_request, fun _ _ hr => ⟨fun _ hi => serve_of_decoded hr hi, fun _ he => serve_of_rejected hr he⟩⟩

end Sys2Proof.Proofs

/-! ## The operand readers: what they accept is what the writers write (30_encoding.md R74) -/

namespace Sys2Proof.Machine

/-! ### Numbers and byte counts -/

theorem takeBytes_eq_ok_iff {n : Nat} {bs xs rest : List Byte} :
    takeBytes n bs = .ok (xs, rest) ↔ bs = xs ++ rest ∧ xs.length = n :=
  ⟨takeBytes_ok, fun ⟨hbs, hlen⟩ => hbs ▸ takeBytes_append_of_length hlen rest⟩

theorem takeNat_eq_ok_iff {bs rest : List Byte} {n : Nat} :
    takeNat bs = .ok (n, rest) ↔ bs = natBytes n ++ rest :=
  ⟨takeNat_ok, fun h => h ▸ takeNat_natBytes n rest⟩

theorem takeCounted_eq_ok_iff {bs xs rest : List Byte} :
    takeCounted bs = .ok (xs, rest) ↔ bs = countedBytes xs ++ rest :=
  ⟨takeCounted_ok, fun h => h ▸ takeCounted_countedBytes xs rest⟩

/-! ### Scalars -/

section Scalars

variable {n w : Nat} (hw : 256 ^ n = 2 ^ w)
include hw

theorem ofNat_beNat_beBytes (v : BitVec w) : BitVec.ofNat w (beNat (beBytes n v.toNat)) = v := by
  rw [beNat_beBytes, hw, Nat.mod_eq_of_lt v.isLt, BitVec.ofNat_toNat, BitVec.setWidth_eq]

theorem beBytes_ofNat_beNat {xs : List Byte} (hlen : xs.length = n) :
    beBytes n (BitVec.ofNat w (beNat xs)).toNat = xs := by
  subst hlen
  rw [BitVec.toNat_ofNat, ← hw, Nat.mod_eq_of_lt (beNat_lt xs), beBytes_beNat]

end Scalars

theorem beBytes_one (b : Byte) : beBytes 1 b.toNat = [b] := by simp [beBytes]

/-! ### The ten fields of link statistics -/

theorem linkFieldsOf_eq_ofFn (bs : List Byte) : linkFieldsOf bs = Vector.ofFn fun i : Fin 10 => bs.getD i 0 := rfl

@[simp] theorem linkFieldsOf_toList (f : LinkFields) : linkFieldsOf f.toList = f := by
  ext i hi : 1
  simp [linkFieldsOf_eq_ofFn]

theorem toList_linkFieldsOf {bs : List Byte} (h : bs.length = 10) : (linkFieldsOf bs).toList = bs := by
  refine List.ext_getElem (by simp [h]) fun i hi hi' => ?_
  simp [linkFieldsOf_eq_ofFn, hi']

/-! ### The sixteen channels, two bytes a lane -/

theorem lanesOf_eq_ofFn (bs : List Byte) :
    lanesOf bs = Vector.ofFn fun i : Fin 16 => BitVec.ofNat 11 (laneOf bs i) := rfl

@[simp] theorem length_laneBytes (ch : Channels) : (laneBytes ch).length = 32 := by
  simp [laneBytes, List.length_flatMap]

/-- The lanes of written channels are the channels. -/
theorem laneOf_flatMap (cs : List (BitVec 11)) {i : Nat} (hi : i < cs.length) :
    laneOf (cs.flatMap fun c => beBytes 2 c.toNat) i = cs[i].toNat := by
  induction cs generalizing i with
  | nil => exact absurd hi (Nat.not_lt_zero i)
  | cons c cs ih =>
    cases i with
    | zero =>
      have hc := c.isLt
      exact (beNat_beBytes 2 c.toNat).trans (Nat.mod_eq_of_lt (by omega))
    | succ i => exact ih (Nat.lt_of_succ_lt_succ hi)

theorem laneOf_laneBytes (ch : Channels) {i : Nat} (hi : i < 16) : laneOf (laneBytes ch) i = ch[i].toNat := by
  rw [laneBytes, laneOf_flatMap ch.toList (by simpa using hi), Vector.getElem_toList]

/-- Bytes that come in pairs are the bytes of their lanes. -/
theorem flatMap_laneOf {n : Nat} {bs : List Byte} (h : bs.length = 2 * n) :
    (List.range n).flatMap (fun i => beBytes 2 (laneOf bs i)) = bs := by
  induction n generalizing bs with
  | zero => exact (List.eq_nil_of_length_eq_zero h).symm
  | succ n ih =>
    match bs, h with
    | a :: b :: bs, h =>
      rw [List.range_succ_eq_map, List.flatMap_cons, List.flatMap_map]
      exact congrArg₂ (· ++ ·) (beBytes_beNat [a, b]) (ih (by simpa [Nat.mul_succ] using h))

@[simp] theorem lanesOf_laneBytes (ch : Channels) : lanesOf (laneBytes ch) = ch := by
  ext i hi : 1
  simp [lanesOf_eq_ofFn, laneOf_laneBytes ch hi]

theorem toList_lanesOf (bs : List Byte) :
    (lanesOf bs).toList = (List.range 16).map fun i => BitVec.ofNat 11 (laneOf bs i) := rfl

theorem laneBytes_lanesOf {bs : List Byte} (hlen : bs.length = 32) (h : ∀ i < 16, laneOf bs i < 2048) :
    laneBytes (lanesOf bs) = bs := by
  rw [laneBytes, toList_lanesOf, List.flatMap_map]
  refine (List.flatMap_congr fun i hi => ?_).trans (flatMap_laneOf (n := 16) hlen)
  rw [BitVec.toNat_ofNat, Nat.mod_eq_of_lt (h i (List.mem_range.1 hi))]

theorem takeLanes_eq_ok_iff {bs rest : List Byte} {ch : Channels} :
    takeLanes bs = .ok (ch, rest) ↔ bs = laneBytes ch ++ rest := by
  constructor
  · intro h
    unfold takeLanes at h
    split at h
    · cases h
    next ls rest' hls =>
      obtain ⟨rfl, hlen⟩ := takeBytes_ok hls
      split at h
      next hlane =>
        cases h
        rw [laneBytes_lanesOf hlen (by simpa using hlane)]
      · cases h
  · rintro rfl
    have hlane : (List.range 16).all (fun i => laneOf (laneBytes ch) i < 2048) = true :=
      List.all_eq_true.2 fun i hi => by
        rw [laneOf_laneBytes ch (List.mem_range.1 hi)]
        exact decide_eq_true (BitVec.isLt _)
    simp [takeLanes, takeBytes_append_of_length, hlane]

end Sys2Proof.Machine

/-! ## The command formats (30_encoding.md R74): each accepts exactly the bytes the encoder writes -/

namespace Sys2Proof

open Machine

section Formats

variable {bs : List Byte} {i : Instr}

/-- A reader that takes an operand off the front of a command and goes on with the rest. -/
theorem bind_eq_ok_iff {α : Type} {x : Except Reject (α × List Byte)} {k : α × List Byte → Except Reject Instr} :
    x.bind k = .ok i ↔ ∃ v rest, x = .ok (v, rest) ∧ k (v, rest) = .ok i := by
  cases x with
  | error e => simp [Except.bind]
  | ok v => exact ⟨fun h => ⟨v.1, v.2, rfl, h⟩, fun ⟨_, _, hv, h⟩ => Except.ok.inj hv ▸ h⟩

@[simp] theorem finishCommand_eq_ok_iff {j : Instr} : finishCommand j bs = .ok i ↔ bs = [] ∧ j = i := by
  cases bs <;> simp [finishCommand]

theorem scalarCommand_eq_ok_iff {n w : Nat} {mk : BitVec w → Instr} (hw : 256 ^ n = 2 ^ w) :
    scalarCommand n (fun v => mk (BitVec.ofNat w v)) bs = .ok i ↔ ∃ v, bs = beBytes n v.toNat ∧ mk v = i := by
  have hbind : scalarCommand n (fun v => mk (BitVec.ofNat w v)) bs =
      (takeBytes n bs).bind fun x => finishCommand (mk (BitVec.ofNat w (beNat x.1))) x.2 := by
    unfold scalarCommand
    cases takeBytes n bs <;> rfl
  rw [hbind, bind_eq_ok_iff]
  constructor
  · rintro ⟨xs, rest, hx, hfin⟩
    obtain ⟨rfl, hlen⟩ := takeBytes_ok hx
    obtain ⟨rfl, rfl⟩ := finishCommand_eq_ok_iff.1 hfin
    exact ⟨_, by rw [beBytes_ofNat_beNat hw hlen, List.append_nil], rfl⟩
  · rintro ⟨v, rfl, rfl⟩
    refine ⟨beBytes n v.toNat, [], takeBytes_eq_ok_iff.2 ⟨by simp, by simp⟩, ?_⟩
    rw [ofNat_beNat_beBytes hw, finishCommand_eq_ok_iff]
    exact ⟨rfl, rfl⟩

theorem bytesCommand_eq_ok_iff {mk : List Byte → Instr} :
    bytesCommand mk bs = .ok i ↔ ∃ v, bs = countedBytes v ∧ mk v = i := by
  have hbind : bytesCommand mk bs = (takeCounted bs).bind fun x => finishCommand (mk x.1) x.2 := by
    unfold bytesCommand
    cases takeCounted bs <;> rfl
  simp [hbind, bind_eq_ok_iff, takeCounted_eq_ok_iff]

theorem capCommand_eq_ok_iff {mk : Nat → Instr} :
    capCommand mk bs = .ok i ↔ ∃ cap, bs = natBytes cap ∧ mk cap = i := by
  have hbind : capCommand mk bs = (takeNat bs).bind fun x => finishCommand (mk x.1) x.2 := by
    unfold capCommand
    cases takeNat bs <;> rfl
  simp [hbind, bind_eq_ok_iff, takeNat_eq_ok_iff]

/-- An operand followed by the `out_cap` that ends the command. -/
theorem bind_capCommand_eq_ok_iff {α : Type} {x : Except Reject (α × List Byte)} {mk : α → Nat → Instr} :
    (x.bind fun y => capCommand (mk y.1) y.2) = .ok i ↔ ∃ v cap, x = .ok (v, natBytes cap) ∧ mk v cap = i := by
  rw [bind_eq_ok_iff]
  constructor
  · rintro ⟨v, rest, hx, hcap⟩
    obtain ⟨cap, rfl, rfl⟩ := capCommand_eq_ok_iff.1 hcap
    exact ⟨v, cap, hx, rfl⟩
  · rintro ⟨v, cap, hx, rfl⟩
    exact ⟨v, natBytes cap, hx, capCommand_eq_ok_iff.2 ⟨cap, rfl, rfl⟩⟩

theorem withLanes_capCommand_eq_ok_iff {mk : Channels → Nat → Instr} :
    withLanes bs (fun ch => capCommand (mk ch)) = .ok i ↔
      ∃ ch cap, bs = laneBytes ch ++ natBytes cap ∧ mk ch cap = i := by
  have hbind : withLanes bs (fun ch => capCommand (mk ch)) = (takeLanes bs).bind fun x => capCommand (mk x.1) x.2 := by
    unfold withLanes
    cases takeLanes bs <;> rfl
  simp [hbind, bind_capCommand_eq_ok_iff, takeLanes_eq_ok_iff]

theorem withLinkFields_capCommand_eq_ok_iff {mk : LinkFields → Nat → Instr} :
    withLinkFields bs (fun f => capCommand (mk f)) = .ok i ↔
      ∃ f cap, bs = f.toList ++ natBytes cap ∧ mk f cap = i := by
  have hbind : withLinkFields bs (fun f => capCommand (mk f)) =
      (takeBytes 10 bs).bind fun x => capCommand (mk (linkFieldsOf x.1)) x.2 := by
    unfold withLinkFields
    cases takeBytes 10 bs <;> rfl
  rw [hbind, bind_capCommand_eq_ok_iff (mk := fun xs => mk (linkFieldsOf xs))]
  constructor
  · rintro ⟨xs, cap, hxs, rfl⟩
    obtain ⟨rfl, hlen⟩ := takeBytes_ok hxs
    exact ⟨linkFieldsOf xs, cap, by rw [toList_linkFieldsOf hlen], rfl⟩
  · rintro ⟨f, cap, rfl, rfl⟩
    exact ⟨f.toList, cap, takeBytes_append_of_length (by simp) _, by rw [linkFieldsOf_toList]⟩

theorem withBaroFields_capCommand_eq_ok_iff {mk : BitVec 16 → BitVec 8 → Nat → Instr} :
    withBaroFields bs (fun alt vs => capCommand (mk alt vs)) = .ok i ↔
      ∃ alt vs cap, bs = beBytes 2 alt.toNat ++ [vs] ++ natBytes cap ∧ mk alt vs cap = i := by
  have hbind : withBaroFields bs (fun alt vs => capCommand (mk alt vs)) = (takeBytes 3 bs).bind fun x =>
      capCommand (mk (BitVec.ofNat 16 (beNat (x.1.take 2))) (x.1.getD 2 0)) x.2 := by
    unfold withBaroFields
    cases takeBytes 3 bs <;> rfl
  rw [hbind, bind_capCommand_eq_ok_iff
    (mk := fun xs : List Byte => mk (BitVec.ofNat 16 (beNat (xs.take 2))) (xs.getD 2 0))]
  constructor
  · rintro ⟨xs, cap, hxs, rfl⟩
    obtain ⟨rfl, hlen⟩ := takeBytes_ok hxs
    obtain ⟨a, b, vs, rfl⟩ := List.length_eq_three.1 hlen
    refine ⟨_, vs, cap, ?_, rfl⟩
    rw [beBytes_ofNat_beNat (by decide) (by simp)]
    rfl
  · rintro ⟨alt, vs, cap, rfl, rfl⟩
    refine ⟨beBytes 2 alt.toNat ++ [vs], cap, takeBytes_append_of_length (by simp) _, ?_⟩
    rw [List.take_left' (length_beBytes 2 _), ofNat_beNat_beBytes (by decide)]
    rfl

theorem recordCommand_eq_ok_iff {mk : Record → Nat → Instr} :
    recordCommand mk bs = .ok i ↔ ∃ r cap, bs = recordBytes r ++ natBytes cap ∧ mk r cap = i := by
  constructor
  · intro h
    unfold recordCommand at h
    split at h
    · cases h
    next sel rest =>
      split at h
      next hsel =>
        obtain rfl : sel = 0 := BitVec.eq_of_toNat_eq hsel
        obtain ⟨f, cap, rfl, rfl⟩ := withLinkFields_capCommand_eq_ok_iff.1 h
        exact ⟨.linkStatistics f, cap, rfl, rfl⟩
      next hsel =>
        obtain rfl : sel = 1 := BitVec.eq_of_toNat_eq hsel
        obtain ⟨ch, cap, rfl, rfl⟩ := withLanes_capCommand_eq_ok_iff.1 h
        exact ⟨.rcChannels ch, cap, rfl, rfl⟩
      next hsel =>
        obtain rfl : sel = 2 := BitVec.eq_of_toNat_eq hsel
        obtain ⟨alt, vs, cap, rfl, rfl⟩ := withBaroFields_capCommand_eq_ok_iff.1 h
        exact ⟨.baroAltitude alt vs, cap, rfl, rfl⟩
      next hsel =>
        obtain rfl : sel = 3 := BitVec.eq_of_toNat_eq hsel
        split at h
        · cases h
        next tag rest =>
          split at h
          · cases h
          next fields rest hfields =>
            obtain rfl := takeCounted_ok hfields
            obtain ⟨cap, rfl, rfl⟩ := capCommand_eq_ok_iff.1 h
            exact ⟨.extra tag fields, cap, by simp [recordBytes], rfl⟩
      · cases h
  · rintro ⟨r, cap, rfl, rfl⟩
    cases r with
    | linkStatistics f =>
      exact (withLinkFields_capCommand_eq_ok_iff (mk := fun f => mk (.linkStatistics f))).2 ⟨f, cap, rfl, rfl⟩
    | rcChannels ch =>
      exact (withLanes_capCommand_eq_ok_iff (mk := fun ch => mk (.rcChannels ch))).2 ⟨ch, cap, rfl, rfl⟩
    | baroAltitude alt vs =>
      exact (withBaroFields_capCommand_eq_ok_iff (mk := fun alt vs => mk (.baroAltitude alt vs))).2
        ⟨alt, vs, cap, rfl, rfl⟩
    | extra tag fields =>
      simpa [recordCommand, recordBytes] using capCommand_eq_ok_iff.2 ⟨cap, rfl, rfl⟩

/-- An ENCODE_FRAME that was read is accepted where its operands meet its precondition (U15). -/
theorem checkPresentable_encodeFrame_eq_ok_iff {p : Params} {destination : Byte} {record : Record} {cap : Nat} :
    checkPresentable p (.ok (.encodeFrame destination record cap)) = .ok i ↔
      (Instr.encodeFrame destination record cap).wellFormed p = true ∧ .encodeFrame destination record cap = i := by
  simp only [checkPresentable, Instr.wellFormed]
  cases p.addrSet.contains destination <;> cases record.registered p <;> simp

theorem frameCommand_eq_ok_iff {p : Params} :
    frameCommand p bs = .ok i ↔ ∃ destination record cap,
      bs = destination :: (recordBytes record ++ natBytes cap) ∧
      (Instr.encodeFrame destination record cap).wellFormed p = true ∧ .encodeFrame destination record cap = i := by
  cases bs with
  | nil => simp [frameCommand]
  | cons destination rest =>
    constructor
    · intro h
      rw [frameCommand] at h
      cases hrec : recordCommand (.encodeFrame destination) rest with
      | error e => rw [hrec] at h; cases h
      | ok j =>
        obtain ⟨record, cap, rfl, rfl⟩ := recordCommand_eq_ok_iff.1 hrec
        rw [hrec] at h
        exact ⟨destination, record, cap, rfl, checkPresentable_encodeFrame_eq_ok_iff.1 h⟩
    · rintro ⟨_, record, cap, ⟨⟩, hok⟩
      rw [frameCommand, recordCommand_eq_ok_iff.2 ⟨record, cap, rfl, rfl⟩]
      exact checkPresentable_encodeFrame_eq_ok_iff.2 hok

end Formats

/-! ## The op codes (30_encoding.md R73) -/

/-- An operation the decoder reads from operand bytes is well formed, and its encoding is the op code and those
bytes. -/
theorem encodeWith_of_decodeOperands {p : Params} {op : Nat} {bs : List Byte} {i : Instr}
    (h : decodeOperands p op bs = .ok i) :
    i.wellFormed p = true ∧ encodeWith p i = .command (BitVec.ofNat 8 op :: bs) := by
  match op, h with
  | 0x0, h | 0x3, h | 0xF, h =>
    obtain ⟨rfl, rfl⟩ := finishCommand_eq_ok_iff.1 h
    exact ⟨rfl, rfl⟩
  | 0x1, h | 0xA, h =>
    obtain ⟨v, rfl, rfl⟩ := (scalarCommand_eq_ok_iff (by decide)).1 h
    exact ⟨rfl, by rw [beBytes_one]; rfl⟩
  | 0x8, h | 0x9, h | 0xB, h =>
    obtain ⟨v, rfl, rfl⟩ := (scalarCommand_eq_ok_iff (by decide)).1 h
    exact ⟨rfl, rfl⟩
  | 0x2, h | 0x4, h | 0x6, h | 0xC, h =>
    obtain ⟨v, rfl, rfl⟩ := bytesCommand_eq_ok_iff.1 h
    exact ⟨rfl, rfl⟩
  | 0x5, h =>
    obtain ⟨ch, cap, rfl, rfl⟩ := (withLanes_capCommand_eq_ok_iff (mk := .rcEncode)).1 h
    exact ⟨rfl, rfl⟩
  | 0x7, h =>
    obtain ⟨alt, vs, cap, rfl, rfl⟩ := (withBaroFields_capCommand_eq_ok_iff (mk := .baroEncode)).1 h
    exact ⟨rfl, rfl⟩
  | 0xD, h =>
    obtain ⟨f, cap, rfl, rfl⟩ := (withLinkFields_capCommand_eq_ok_iff (mk := .linkstatEncode)).1 h
    exact ⟨rfl, rfl⟩
  | 0xE, h =>
    obtain ⟨destination, record, cap, rfl, hwf, rfl⟩ := frameCommand_eq_ok_iff.1 h
    exact ⟨hwf, rfl⟩
  | _ + 16, h => cases h

/-- What the decoder reads from a command is well formed and encodes as that command. -/
theorem encodeWith_of_decodeCommand {p : Params} {bs : List Byte} {i : Instr} (h : decodeCommand p bs = .ok i) :
    i.wellFormed p = true ∧ encodeWith p i = .command bs := by
  cases bs with
  | nil => cases h
  | cons op bs =>
    obtain ⟨hwf, henc⟩ := encodeWith_of_decodeOperands (op := op.toNat) h
    exact ⟨hwf, by rw [henc, BitVec.ofNat_toNat, BitVec.setWidth_eq]⟩

end Sys2Proof

/-! ## Frames (30_encoding.md R63, R76) -/

namespace Sys2Proof

open Machine

/-- The row that the tag of a frame selects (R76). -/
def frameRow (p : Params) (address tag : Byte) (payload : List Byte) : Instr :=
  if tag = p.tagLinkstat then .frameLinkstat address payload
  else if tag = p.tagRc then .frameRcChannels address payload
  else if tag = p.tagBaro then .frameBaroAlt address payload
  else .frameNotImplemented address tag payload

section Frames

variable {p : Params} {address tag : Byte} {payload f : List Byte} {i : Instr}

theorem encodeWith_frameRow :
    encodeWith p (frameRow p address tag payload) = .frame (rawFrame p address tag payload) := by
  unfold frameRow
  split_ifs with hls hrc hbaro
  · rw [hls]; rfl
  · rw [hrc]; rfl
  · rw [hbaro]; rfl
  · rfl

theorem wellFormed_frameRow : (frameRow p address tag payload).wellFormed p = frameOperandsOk p address payload := by
  unfold frameRow
  split_ifs with hls hrc hbaro
  · rfl
  · rfl
  · rfl
  · simp [Instr.wellFormed, hls, hrc, hbaro]

/-- The tags of the three codecs differ where the registry's tags are distinct (R123). -/
theorem codecTags_ne (h : p.tags.Nodup) :
    p.tagLinkstat ≠ p.tagRc ∧ p.tagLinkstat ≠ p.tagBaro ∧ p.tagRc ≠ p.tagBaro := by
  refine ⟨?_, ?_, ?_⟩ <;> intro he <;> simp [Params.tags, he] at h

theorem frameRow_tagLinkstat : frameRow p address p.tagLinkstat payload = .frameLinkstat address payload := if_pos rfl

theorem frameRow_tagRc (h : p.tags.Nodup) : frameRow p address p.tagRc payload = .frameRcChannels address payload := by
  rw [frameRow, if_neg (codecTags_ne h).1.symm, if_pos rfl]

theorem frameRow_tagBaro (h : p.tags.Nodup) : frameRow p address p.tagBaro payload = .frameBaroAlt address payload := by
  obtain ⟨-, hls, hrc⟩ := codecTags_ne h
  rw [frameRow, if_neg hls.symm, if_neg hrc.symm, if_pos rfl]

theorem frameRow_of_not_mem (h : tag ∉ [p.tagLinkstat, p.tagRc, p.tagBaro]) :
    frameRow p address tag payload = .frameNotImplemented address tag payload := by
  simp only [List.mem_cons, List.not_mem_nil, or_false, not_or] at h
  obtain ⟨hls, hrc, hbaro⟩ := h
  rw [frameRow, if_neg hls, if_neg hrc, if_neg hbaro]

/-- The decoder accepts Raw Frames only, each as the row of its tag. -/
theorem decodeFrame_eq_ok_iff :
    decodeFrame p f = .ok i ↔ isRawFrame p f ∧ frameRow p (frameAddress f) (frameTag f) (framePayload f) = i := by
  by_cases hraw : isRawFrame p f
  · have hok : decodeFrame p f = .ok (frameRow p (frameAddress f) (frameTag f) (framePayload f)) := by
      obtain ⟨hmin, hmax, haddr, hlen, hcrc⟩ := hraw
      rw [decodeFrame, if_neg (not_not.2 ⟨hmin, hmax⟩), if_neg (not_not.2 haddr), if_neg (not_not.2 hlen),
        if_neg (not_not.2 hcrc), frameRow, apply_ite Except.ok, apply_ite Except.ok, apply_ite Except.ok]
    rw [hok, Except.ok.injEq]
    exact (and_iff_right hraw).symm
  · refine iff_of_false (fun hok => hraw ?_) fun h => hraw h.1
    unfold decodeFrame at hok
    split at hok
    · cases hok
    split at hok
    · cases hok
    split at hok
    · cases hok
    split at hok
    · cases hok
    next hsize haddr hlen hcrc =>
      obtain ⟨hmin, hmax⟩ := not_not.1 hsize
      exact ⟨hmin, hmax, not_not.1 haddr, not_not.1 hlen, not_not.1 hcrc⟩

/-- A frame built by R61's layout is a Raw Frame exactly where its address and payload are (R62, R63). -/
theorem isRawFrame_rawFrame_iff (hp : p.SizesOk) :
    isRawFrame p (rawFrame p address tag payload) ↔ frameOperandsOk p address payload = true := by
  obtain ⟨hfour, hcap, hscratch⟩ := hp
  have hcap' : p.maxTotalExcl ≤ 64 := hcap
  have hsize : payload.length ≤ p.maxPayloadRx ↔ payload.length + 4 < p.maxTotalExcl := by
    rw [Params.maxPayloadRx]
    omega
  have hlen : payload.length + 4 < p.maxTotalExcl →
      (BitVec.ofNat 8 (payload.length + 2)).toNat = payload.length + 2 := by
    rw [BitVec.toNat_ofNat]
    omega
  simp only [isRawFrame, frameOperandsOk, length_rawFrame, frameAddress_rawFrame, frameLengthByte_rawFrame,
    frameCrc_rawFrame, frameBody_rawFrame, and_true, Bool.and_eq_true, List.contains_iff_mem, decide_eq_true_eq, hsize]
  constructor
  · rintro ⟨hmin, hmax, haddr, -⟩
    exact ⟨⟨haddr, hmin⟩, hmax⟩
  · rintro ⟨⟨haddr, hmin⟩, hmax⟩
    exact ⟨hmin, hmax, haddr, by rw [hlen hmax]⟩

/-- Four bytes or more are an address, a length byte, a tag, a payload and a CRC byte (R61). -/
theorem frame_eq_parts (h : 4 ≤ f.length) :
    f = [frameAddress f, frameLengthByte f, frameTag f] ++ framePayload f ++ [frameCrc f] ∧
      frameBody f = frameTag f :: framePayload f := by
  match f, h with
  | a :: l :: t :: rest, h =>
    rcases List.eq_nil_or_concat rest with rfl | ⟨payload, c, rfl⟩
    · simp at h
    · have hpayload : framePayload (a :: l :: t :: (payload ++ [c])) = payload := List.dropLast_concat
      have hbody : frameBody (a :: l :: t :: (payload ++ [c])) = t :: payload :=
        List.dropLast_concat (l₁ := t :: payload)
      have hcrc : frameCrc (a :: l :: t :: (payload ++ [c])) = c := by simp [frameCrc]
      rw [List.concat_eq_append, hpayload, hbody, hcrc]
      exact ⟨rfl, rfl⟩

/-- A Raw Frame is the frame of its address, tag and payload: its length byte and CRC byte carry nothing else. -/
theorem rawFrame_of_isRawFrame (hp : p.SizesOk) (h : isRawFrame p f) :
    rawFrame p (frameAddress f) (frameTag f) (framePayload f) = f := by
  obtain ⟨hmin, -, -, hlen, hcrc⟩ := h
  obtain ⟨hparts, hbody⟩ := frame_eq_parts (hp.1.trans hmin)
  have hsize : f.length = (framePayload f).length + 4 := by
    rw [congrArg List.length hparts]
    simp
  have hbyte : BitVec.ofNat 8 ((framePayload f).length + 2) = frameLengthByte f := by
    rw [show (framePayload f).length + 2 = (frameLengthByte f).toNat by omega, BitVec.ofNat_toNat, BitVec.setWidth_eq]
  rw [rawFrame, hbyte, ← hbody, ← hcrc]
  exact hparts.symm

/-- A presentable frame row's frame is read as that row. -/
theorem decodeFrame_rawFrame (hp : p.SizesOk) (h : frameOperandsOk p address payload = true) :
    decodeFrame p (rawFrame p address tag payload) = .ok (frameRow p address tag payload) :=
  decodeFrame_eq_ok_iff.2 ⟨(isRawFrame_rawFrame_iff hp).2 h, by simp⟩

end Frames

/-! ## The decoder and the encoder are inverse -/

theorem decodeWith_encodeWith {p : Params} {i : Instr} (hp : p.Ok) (h : i.wellFormed p = true) :
    decodeWith p (encodeWith p i) = .ok i := by
  obtain ⟨hsizes, -, htags, -⟩ := hp
  cases i with
  | reset | dispatch | reserved0xF => rfl
  | pushByte b | vsUnpack b => exact (scalarCommand_eq_ok_iff (by decide)).2 ⟨b, (beBytes_one b).symm, rfl⟩
  | altUnpack v | vsPack v => exact (scalarCommand_eq_ok_iff (n := 2) (by decide)).2 ⟨v, rfl, rfl⟩
  | altPack v => exact (scalarCommand_eq_ok_iff (n := 4) (by decide)).2 ⟨v, rfl, rfl⟩
  | crc8Digest bs | rcDecode bs | baroDecode bs | linkstatDecode bs => exact bytesCommand_eq_ok_iff.2 ⟨bs, rfl, rfl⟩
  | rcEncode ch cap => exact (withLanes_capCommand_eq_ok_iff (mk := .rcEncode)).2 ⟨ch, cap, rfl, rfl⟩
  | baroEncode alt vs cap =>
    exact (withBaroFields_capCommand_eq_ok_iff (mk := .baroEncode)).2 ⟨alt, vs, cap, rfl, rfl⟩
  | linkstatEncode f cap => exact (withLinkFields_capCommand_eq_ok_iff (mk := .linkstatEncode)).2 ⟨f, cap, rfl, rfl⟩
  | encodeFrame destination record cap => exact frameCommand_eq_ok_iff.2 ⟨destination, record, cap, rfl, h, rfl⟩
  | frameLinkstat address payload => exact (decodeFrame_rawFrame hsizes h).trans (by rw [frameRow_tagLinkstat])
  | frameRcChannels address payload => exact (decodeFrame_rawFrame hsizes h).trans (by rw [frameRow_tagRc htags])
  | frameBaroAlt address payload => exact (decodeFrame_rawFrame hsizes h).trans (by rw [frameRow_tagBaro htags])
  | frameNotImplemented address tag payload =>
    obtain ⟨hok, htag⟩ := Bool.and_eq_true_iff.1 h
    exact (decodeFrame_rawFrame hsizes hok).trans (by rw [frameRow_of_not_mem (by simpa using htag)])

theorem encodeWith_of_decodeWith {p : Params} {r : Request} {i : Instr} (hp : p.SizesOk)
    (h : decodeWith p r = .ok i) : i.wellFormed p = true ∧ encodeWith p i = r := by
  cases r with
  | command bs => exact encodeWith_of_decodeCommand h
  | frame f =>
    obtain ⟨hraw, rfl⟩ := decodeFrame_eq_ok_iff.1 h
    have hf := rawFrame_of_isRawFrame hp hraw
    rw [wellFormed_frameRow, ← isRawFrame_rawFrame_iff hp (tag := frameTag f), encodeWith_frameRow, hf]
    exact ⟨hraw, rfl⟩

end Sys2Proof

/-! ## What a completed frame is (30_encoding.md R63) -/

namespace Sys2Proof.Machine

/-- A slice is a byte and the slice after it. -/
theorem bufSlice_eq_cons (s : State) {a b : Nat} (h : a < b) :
    s.bufSlice a b = s.bufRead a :: s.bufSlice (a + 1) b := by
  rw [State.bufSlice, show b - a = (b - (a + 1)) + 1 by omega]
  rfl

end Sys2Proof.Machine

namespace Sys2Proof.Safety

open Machine

/-- The frame R31 says is held is a Raw Frame. -/
theorem isRawFrame_of_heldFrame {p : Params} {s : State} (hp : p.SizesOk) (h : HeldFrame p s) :
    isRawFrame p (s.bufSlice 0 (s.cursor.toNat + 1)) := by
  obtain ⟨hcur, haddr, ⟨hmin, hmax⟩, hcrc, -⟩ := h
  have hfour := hp.1
  have htwo : 2 ≤ s.cursor.toNat := by omega
  have hf : s.bufSlice 0 (s.cursor.toNat + 1) =
      s.bufRead 0 :: s.bufRead 1 :: (s.bufSlice 2 s.cursor.toNat ++ [s.bufRead s.cursor.toNat]) := by
    rw [bufSlice_eq_cons s (by omega), bufSlice_eq_cons s (by omega), bufSlice_succ s htwo]
  have hbody : frameBody (s.bufSlice 0 (s.cursor.toNat + 1)) = s.bufSlice 2 s.cursor.toNat := by
    rw [hf]
    exact List.dropLast_concat
  have hlast : frameCrc (s.bufSlice 0 (s.cursor.toNat + 1)) = s.bufRead s.cursor.toNat := by
    rw [frameCrc, length_bufSlice, List.getD_eq_getElem?_getD, getElem?_bufSlice _ _ _ _ (by omega)]
    simp
  have hone : frameLengthByte (s.bufSlice 0 (s.cursor.toNat + 1)) = s.bufRead 1 := by rw [hf]; rfl
  have hzero : frameAddress (s.bufSlice 0 (s.cursor.toNat + 1)) = s.bufRead 0 := by rw [hf]; rfl
  rw [isRawFrame, hbody, hlast, hone, hzero, length_bufSlice]
  exact ⟨by omega, by omega, haddr, by omega, hcrc⟩

/-- The one row of PUSH_BYTE's table that answers `Complete` (R95). -/
theorem pushByteStep_complete {p : Params} {b : Byte} {s : State} {n : Nat}
    (h : (pushByteStep p b s).2 = .complete n) :
    (pushByteStep p b s).1.state = .awaitingSync ∧ (pushByteStep p b s).1.frameValid = true ∧
      n = (pushByteStep p b s).1.cursor.toNat + 1 := by
  rcases pushByteStep_cases p b s with
    ⟨-, -, e⟩ | ⟨-, -, e⟩ | ⟨-, -, -, e⟩ | ⟨-, -, e⟩ | ⟨-, -, e⟩ | ⟨-, -, e⟩ | ⟨-, -, e⟩ | ⟨-, -, e⟩ <;>
    rw [e] at h ⊢ <;> cases h
  exact ⟨rfl, rfl, rfl⟩

end Sys2Proof.Safety

/-! ## What the wire-tag rows answer (42_codec_dispatch.md R124) -/

namespace Sys2Proof.Machine

variable {p : Params}

theorem dispatchPayload_tagLinkstat (payload : List Byte) :
    dispatchPayload p p.tagLinkstat payload = decodeResult (linkstatDecodeRecord p payload) := by
  simp [dispatchPayload, registry, linkstatCodec]

theorem dispatchPayload_tagRc (h : p.tags.Nodup) (payload : List Byte) :
    dispatchPayload p p.tagRc payload = decodeResult (rcDecodeRecord p payload) := by
  have hls : (p.tagLinkstat == p.tagRc) = false := beq_false_of_ne (codecTags_ne h).1
  simp [dispatchPayload, registry, linkstatCodec, rcCodec, hls]

theorem dispatchPayload_tagBaro (h : p.tags.Nodup) (payload : List Byte) :
    dispatchPayload p p.tagBaro payload = decodeResult (baroDecodeRecord p payload) := by
  obtain ⟨-, hls, hrc⟩ := codecTags_ne h
  rw [← beq_eq_false_iff_ne] at hls hrc
  simp [dispatchPayload, registry, linkstatCodec, rcCodec, baroCodec, hls, hrc]

theorem map_packetType_registry (p : Params) : (registry p).map Codec.packetType = p.tags := by
  simp [registry, Params.tags, linkstatCodec, rcCodec, baroCodec, extraCodec, Function.comp_def]

/-- A tag without an entry in the registry is the fallback, whatever its payload (R124). -/
theorem dispatchPayload_of_not_mem {tag : Byte} (h : tag ∉ p.tags) (payload : List Byte) :
    dispatchPayload p tag payload = .packet (.notImplemented tag payload.length) := by
  have hnone : (registry p).find? (fun c => c.packetType == tag) = none := by
    refine List.find?_eq_none.2 fun c hc hct => h ?_
    rw [← map_packetType_registry, ← eq_of_beq hct]
    exact List.mem_map_of_mem hc
  rw [dispatchPayload, hnone]

/-- A decode that accepts longer payloads and any content (R121). -/
theorem decodeResult_decodeChecked (h : p.fixedLenExact = false) (minPayload : Nat) (fixedSize : Bool)
    (content : List Byte → Record) (payload : List Byte) :
    decodeResult (decodeChecked p minPayload fixedSize (fun b => .ok (content b)) payload) =
      if payload.length < minPayload then .error .invalidPayloadLength else .packet (.record (content payload)) := by
  rw [decodeChecked_eq, apply_ite decodeResult]
  by_cases hlt : payload.length < minPayload
  · rw [if_pos hlt, if_neg (by omega)]; rfl
  · rw [if_neg hlt, if_pos ⟨by omega, by simp [h]⟩]; rfl

/-- A wire-tag row replies with `dispatch` of its tag and payload, and writes nothing else (R76). -/
theorem frameRowWith_eq_next (address tag : Byte) (payload : List Byte) (s : State) :
    frameRowWith p address tag payload s = .next (s.reply (dispatchPayload p tag payload)) := by
  rw [frameRowWith, respond_next, dispatchFrame, frameTag_rawFrame, framePayload_rawFrame]

end Sys2Proof.Machine

/-! ## The obligations on the encoding -/

namespace Sys2Proof.Proofs

open Machine Safety

/-- Settles O56: each reader accepts what the encoder writes, and distinct tags keep the frame rows apart. -/
theorem decodeOfEncodeIsTheInstruction : Obligations.DecodeOfEncodeIsTheInstruction := fun _ _ hp h =>
  decodeWith_encodeWith hp h

/-- Settles O57: each reader accepts nothing but what the encoder writes, and a Raw Frame is fixed by its address, tag
and payload. -/
theorem acceptedRequestsAreTheirEncoding : Obligations.AcceptedRequestsAreTheirEncoding := fun _ _ _ hp h =>
  encodeWith_of_decodeWith hp h

/-- Settles O17: the invariant after the push says what the completed frame is. -/
theorem completedFramesAreRawFrames : Obligations.CompletedFramesAreRawFrames := by
  intro p s t b n hp hinv hexec hanswer
  have ht := inv_execWith hp hinv hexec
  rw [respond_eq_next hexec] at hanswer ht ⊢
  obtain ⟨hsync, hvalid, hn⟩ := pushByteStep_complete (Option.some.inj hanswer)
  have hheld : HeldFrame p ((pushByteStep p b s).1.reply (pushByteStep p b s).2) :=
    (stateRow_awaitingSync hsync).1 ht.2 hvalid
  have hraw := isRawFrame_of_heldFrame hp hheld
  rw [State.reply_cursor, ← hn] at hraw
  have ⟨hmin, hmax, _⟩ := hraw
  obtain ⟨hfour, hcap, -⟩ := hp
  have hcap' : p.maxTotalExcl ≤ 64 := hcap
  rw [length_bufSlice] at hmin hmax
  exact ⟨by omega, by omega, hn, hvalid, hraw⟩

/-- Settles O2, by computing the default build's sizes, addresses and tags. -/
theorem defaultParametersAreLegal : Obligations.DefaultParametersAreLegal := by
  unfold Obligations.DefaultParametersAreLegal
  decide

/-- Settles O53: a row replies with the codec that the registry has for its tag. -/
theorem wireTagRowsDispatchTheirFrame : Obligations.WireTagRowsDispatchTheirFrame := by
  intro a payload s
  have htags : params.tags.Nodup := by decide
  refine ⟨?_, ?_, ?_, fun tag hls hrc hbaro => ?_⟩
  · rw [exec_eq_execWith, execWith, frameRowWith_eq_next, dispatchPayload_tagLinkstat, linkstatDecodeRecord,
      decodeResult_decodeChecked rfl]
    rfl
  · rw [exec_eq_execWith, execWith, frameRowWith_eq_next, dispatchPayload_tagRc htags, rcDecodeRecord,
      decodeResult_decodeChecked rfl]
    rfl
  · rw [exec_eq_execWith, execWith, frameRowWith_eq_next, dispatchPayload_tagBaro htags, baroDecodeRecord,
      decodeResult_decodeChecked rfl]
    rfl
  · have htag : tag ∉ params.tags := by simpa [Params.tags, params] using ⟨hls, hrc, hbaro⟩
    rw [exec_eq_execWith, execWith, frameRowWith_eq_next, dispatchPayload_of_not_mem htag]
    rfl

/-- Settles O54: the operation is its reply. -/
theorem reservedCodeIsRefusedWithoutEffect : Obligations.ReservedCodeIsRefusedWithoutEffect := fun _ => rfl

/-- Settles O58, by running the decoder on the six requests. The kernel evaluates the two frames' CRC folds. -/
theorem wordsDecodeAsTheTablesSay : Obligations.WordsDecodeAsTheTablesSay := by
  unfold Obligations.WordsDecodeAsTheTablesSay
  decide +kernel

end Sys2Proof.Proofs

/-! ## PUSH_BYTE, rule by rule (40_frame_fsm.md R91 to R95) -/

namespace Sys2Proof.Machine

theorem State.enter_self {s : State} {q : ParserState} (h : s.state = q) : s.enter q = s := by
  subst h
  rfl

section Push

variable {p : Params} {s : State} {b : Byte}

theorem execWith_pushByte (p : Params) (b : Byte) (s : State) :
    execWith p (.pushByte b) s = .next ((pushByteStep p b s).1.reply (pushByteStep p b s).2) := rfl

theorem exec_pushByte (b : Byte) (s : State) :
    exec (.pushByte b) s = .next ((pushByteStep params b s).1.reply (pushByteStep params b s).2) := rfl

theorem pushByteStep_address (hs : s.state = .awaitingSync) (hb : b ∈ p.addrSet) :
    pushByteStep p b s =
      (((s.invalidateFrame.setCursor 0).bufWrite 0 b).enter .awaitingLength, .incomplete) := by
  simp only [pushByteStep, hs]
  exact if_pos hb

theorem pushByteStep_not_address (hs : s.state = .awaitingSync) (hb : b ∉ p.addrSet) :
    pushByteStep p b s = (s.invalidateFrame, .error (.invalidSync b)) := by
  simp only [pushByteStep, hs]
  exact if_neg hb

theorem pushByteStep_length (hs : s.state = .awaitingLength) (hmin : p.minTotal ≤ b.toNat + 2)
    (hmax : b.toNat + 2 < p.maxTotalExcl) :
    pushByteStep p b s =
      ((((s.invalidateFrame.setCursor (s.cursor + 1)).bufWrite 1 b).setTarget
        (BitVec.ofNat 6 (b.toNat + 1))).enter .reading, .incomplete) := by
  simp only [pushByteStep, hs]
  exact if_neg (by omega)

theorem pushByteStep_bad_length (hs : s.state = .awaitingLength)
    (hb : b.toNat + 2 < p.minTotal ∨ p.maxTotalExcl ≤ b.toNat + 2) :
    pushByteStep p b s = (s.invalidateFrame.enter .awaitingSync, .error (.invalidPacketLength b)) := by
  simp only [pushByteStep, hs]
  exact if_pos hb

theorem pushByteStep_reading (hs : s.state = .reading) :
    pushByteStep p b s =
      ((appendByte b s.invalidateFrame).enter
        (if (s.cursor + 1).toNat + 1 = s.target.toNat then .awaitingCrc else .reading), .incomplete) := by
  simp only [pushByteStep, hs]
  by_cases h : (s.cursor + 1).toNat + 1 = s.target.toNat
  · rw [if_pos h]
    exact if_pos h
  · rw [if_neg h, State.enter_self (s := appendByte b s.invalidateFrame) hs]
    exact if_neg h

/-- The CRC byte itself is not among the bytes that the digest of R95 covers. -/
theorem bufSlice_appendByte (h : s.cursor.toNat < 63) (b : Byte) (a : Nat) :
    (appendByte b s.invalidateFrame).bufSlice a (s.cursor + 1).toNat = s.bufSlice a (s.cursor.toNat + 1) := by
  rw [toNat_cursor_succ h]
  exact bufSlice_congr fun i _ hi => bufRead_appendByte_of_le h b (by omega)

theorem pushByteStep_crc (hs : s.state = .awaitingCrc) (hc : s.cursor.toNat < 63)
    (hcrc : frameDigest p (s.bufSlice 2 (s.cursor.toNat + 1)) = b) :
    pushByteStep p b s =
      (((appendByte b s.invalidateFrame).enter .awaitingSync).validateFrame, .complete (s.cursor.toNat + 2)) := by
  rw [← bufSlice_appendByte hc b] at hcrc
  rw [show s.cursor.toNat + 2 = (s.cursor + 1).toNat + 1 by rw [toNat_cursor_succ hc]]
  simp only [pushByteStep, hs]
  exact if_neg (not_not.2 hcrc)

theorem pushByteStep_bad_crc (hs : s.state = .awaitingCrc) (hc : s.cursor.toNat < 63)
    (hcrc : frameDigest p (s.bufSlice 2 (s.cursor.toNat + 1)) ≠ b) :
    pushByteStep p b s =
      ((appendByte b s.invalidateFrame).enter .awaitingSync,
        .error (.invalidCrc (frameDigest p (s.bufSlice 2 (s.cursor.toNat + 1))) b)) := by
  rw [← bufSlice_appendByte hc b] at hcrc ⊢
  simp only [pushByteStep, hs]
  exact if_pos hcrc

/-- The prologue of R92 and the append of R23, with the new cursor as an integer. -/
theorem appendByte_invalidateFrame (h : s.cursor.toNat < 63) (b : Byte) :
    appendByte b s.invalidateFrame =
      { s with frameValid := false, cursor := s.cursor + 1, buf := s.buf.store (s.cursor.toNat + 1) b } := by
  rw [← toNat_cursor_succ h]
  rfl

/-- The largest frame has at most 63 bytes, `buf`'s indices but one (R62). -/
theorem maxTotalExcl_le (hp : p.SizesOk) : p.maxTotalExcl ≤ 64 := hp.2.1

theorem toNat_target_of_length (hp : p.SizesOk) (hmax : b.toNat + 2 < p.maxTotalExcl) :
    (BitVec.ofNat 6 (b.toNat + 1)).toNat = b.toNat + 1 := by
  have hcap := maxTotalExcl_le hp
  rw [BitVec.toNat_ofNat]
  omega

end Push

/-! ## PUSH_BYTES (30_encoding.md R78) over a stream that is cut -/

theorem pushBytes_append (p : Params) (xs ys : List Byte) (s : State) :
    pushBytes p (xs ++ ys) s =
      ((pushBytes p ys (pushBytes p xs s).1).1,
        (pushBytes p xs s).2 ++ (pushBytes p ys (pushBytes p xs s).1).2) := by
  induction xs generalizing s with
  | nil => rfl
  | cons x xs ih => simp [pushBytes_cons, ih]

theorem pushBytes_singleton (p : Params) (b : Byte) (s : State) :
    pushBytes p [b] s = ((pushByteStep p b s).1.reply (pushByteStep p b s).2, [(pushByteStep p b s).2]) := rfl

/-! ## The bytes received so far -/

/-- `buf` up to the cursor is exactly `xs` (10_state.md R23). -/
def Received (s : State) (xs : List Byte) : Prop := s.cursor.toNat + 1 = xs.length ∧ s.bufSlice 0 xs.length = xs

section Received

variable {s : State} {xs : List Byte}

theorem received_address (s : State) (b : Byte) : Received ((s.setCursor 0).bufWrite 0 b) [b] :=
  ⟨rfl, by simp [State.bufSlice, bufRead_bufWrite]⟩

theorem Received.appendByte (h : Received s xs) (hlen : xs.length < 64) (b : Byte) :
    Received (appendByte b s) (xs ++ [b]) := by
  obtain ⟨hcur, hbuf⟩ := h
  have hsucc : (s.cursor + 1).toNat = xs.length := by rw [toNat_cursor_succ (by omega), hcur]
  refine ⟨by rw [appendByte_cursor, hsucc, List.length_append, List.length_singleton], ?_⟩
  have hold : (Machine.appendByte b s).bufSlice 0 xs.length = xs := by
    refine (bufSlice_congr fun i _ hi => ?_).trans hbuf
    rw [bufRead_appendByte, if_neg (by omega)]
  rw [List.length_append, List.length_singleton, bufSlice_succ _ (Nat.zero_le _), hold, ← hsucc,
    bufRead_appendByte_cursor]

/-- What is received after the address byte and the length byte is what the CRC covers (R95). -/
theorem Received.bufSlice_two {a l : Byte} {body : List Byte} (h : Received s (a :: l :: body)) :
    s.bufSlice 2 (s.cursor.toNat + 1) = body := by
  obtain ⟨hcur, hbuf⟩ := h
  have hlen : s.cursor.toNat + 1 = body.length + 2 := hcur
  rw [← hcur, bufSlice_eq_cons s (by omega), bufSlice_eq_cons s (by omega)] at hbuf
  exact (List.cons.inj (List.cons.inj hbuf).2).2

end Received

/-! ## A frame pushed byte by byte (40_frame_fsm.md R98) -/

/-- Where PUSH_BYTEs of `bs`, begun in reading in the state `s`, have led (R94). -/
structure ReadThrough (s : State) (bs : List Byte) (t : State) : Prop where
  target : t.target = s.target
  cursor : t.cursor.toNat = s.cursor.toNat + bs.length
  state : t.state = if t.cursor.toNat + 1 = t.target.toNat then .awaitingCrc else .reading
  received : ∀ xs, Received s xs → Received t (xs ++ bs)

section Pushes

variable {p : Params} {s t : State} {b a l : Byte} {bs body f : List Byte}

theorem readThrough_nil (hs : s.state = .reading) (hlt : s.cursor.toNat + 2 ≤ s.target.toNat) :
    ReadThrough s [] s where
  target := rfl
  cursor := rfl
  state := by rw [hs, if_neg (by omega)]
  received xs h := by rwa [List.append_nil]

theorem ReadThrough.state_eq_awaitingCrc_iff (h : ReadThrough s bs t) :
    t.state = .awaitingCrc ↔ t.cursor.toNat + 1 = t.target.toNat := by
  rw [h.state]
  split <;> simp [*]

theorem ReadThrough.state_eq_reading_iff (h : ReadThrough s bs t) :
    t.state = .reading ↔ t.cursor.toNat + 1 ≠ t.target.toNat := by
  rw [h.state]
  split <;> simp [*]

/-- One more byte, while it is not the CRC byte's turn. -/
theorem ReadThrough.concat (h : ReadThrough s bs t) (hlt : t.cursor.toNat + 2 ≤ t.target.toNat) (p : Params)
    (b : Byte) :
    (pushByteStep p b t).2 = .incomplete ∧
      ReadThrough s (bs ++ [b]) ((pushByteStep p b t).1.reply (pushByteStep p b t).2) := by
  have hs : t.state = .reading := h.state_eq_reading_iff.2 (by omega)
  have htarget := t.target.isLt
  have hc : t.cursor.toNat < 63 := by omega
  rw [pushByteStep_reading hs]
  refine ⟨rfl, h.target, ?_, rfl, fun xs hxs => ?_⟩
  · exact (toNat_cursor_succ hc).trans (by rw [h.cursor, List.length_append, List.length_singleton, Nat.add_assoc])
  · have ht := h.received xs hxs
    rw [← List.append_assoc]
    exact Received.appendByte (s := t.invalidateFrame) ht (by rw [← ht.1]; omega) b

/-- Up to the target's predecessor, every byte pushed in reading is appended and answered `Incomplete` (R94). -/
theorem pushBytes_reading (hs : s.state = .reading) (hlt : s.cursor.toNat + 2 ≤ s.target.toNat)
    (hlen : s.cursor.toNat + bs.length + 1 ≤ s.target.toNat) :
    (pushBytes p bs s).2 = List.replicate bs.length .incomplete ∧ ReadThrough s bs (pushBytes p bs s).1 := by
  induction bs using List.reverseRecOn with
  | nil => exact ⟨rfl, readThrough_nil hs hlt⟩
  | append_singleton bs b ih =>
    rw [List.length_append, List.length_singleton] at hlen ⊢
    obtain ⟨hres, hread⟩ := ih (by omega)
    obtain ⟨hpush, hread'⟩ := hread.concat (by rw [hread.cursor, hread.target]; omega) p b
    rw [pushBytes_append, pushBytes_singleton, hres, List.replicate_succ']
    exact ⟨by rw [hpush], hread'⟩

/-- An address byte and an accepted length byte begin a frame (R91, R93). -/
theorem pushBytes_header (hp : p.SizesOk) (hs : s.state = .awaitingSync) (ha : a ∈ p.addrSet)
    (hmin : p.minTotal ≤ l.toNat + 2) (hmax : l.toNat + 2 < p.maxTotalExcl) :
    (pushBytes p [a, l] s).2 = [.incomplete, .incomplete] ∧ (pushBytes p [a, l] s).1.state = .reading ∧
      (pushBytes p [a, l] s).1.target.toNat = l.toNat + 1 ∧ Received (pushBytes p [a, l] s).1 [a, l] := by
  rw [pushBytes_cons, pushByteStep_address hs ha, pushBytes_singleton, pushByteStep_length rfl hmin hmax]
  refine ⟨rfl, rfl, toNat_target_of_length hp hmax, ?_⟩
  exact (received_address s.invalidateFrame a).appendByte (by simp) l

/-- A frame up to its CRC byte: every push is `Incomplete`, and the parser awaits that byte. -/
theorem pushBytes_beforeCrc (hp : p.SizesOk) (hs : s.state = .awaitingSync) (ha : a ∈ p.addrSet)
    (hmin : p.minTotal ≤ l.toNat + 2) (hmax : l.toNat + 2 < p.maxTotalExcl) (hlen : body.length + 1 = l.toNat) :
    (pushBytes p (a :: l :: body) s).2 = List.replicate (body.length + 2) .incomplete ∧
      (pushBytes p (a :: l :: body) s).1.state = .awaitingCrc ∧
      Received (pushBytes p (a :: l :: body) s).1 (a :: l :: body) := by
  have hfour := hp.1
  obtain ⟨hres, hread, htarget, hrec⟩ := pushBytes_header hp hs ha hmin hmax
  have hcur : (pushBytes p [a, l] s).1.cursor.toNat + 1 = 2 := hrec.1
  obtain ⟨hres', hthrough⟩ := pushBytes_reading (p := p) (bs := body) hread (by omega) (by omega)
  rw [show a :: l :: body = [a, l] ++ body from rfl, pushBytes_append, hres, hres', Nat.add_comm body.length,
    List.replicate_add]
  refine ⟨rfl, ?_, hthrough.received _ hrec⟩
  rw [hthrough.state_eq_awaitingCrc_iff, hthrough.cursor, hthrough.target]
  omega

/-- The CRC byte of what has been received completes the frame (R95). -/
theorem pushByteStep_crc_of_received (hs : s.state = .awaitingCrc) (hrec : Received s (a :: l :: body))
    (hlen : body.length + 2 ≤ 63) :
    (pushByteStep p (frameDigest p body) s).2 = .complete (body.length + 3) ∧
      (pushByteStep p (frameDigest p body) s).1.state = .awaitingSync ∧
      (pushByteStep p (frameDigest p body) s).1.frameValid = true ∧
      Received (pushByteStep p (frameDigest p body) s).1 (a :: l :: body ++ [frameDigest p body]) := by
  have hcur : s.cursor.toNat + 1 = body.length + 2 := hrec.1
  rw [pushByteStep_crc hs (by omega) (by rw [hrec.bufSlice_two])]
  refine ⟨congrArg Result.complete (by omega), rfl, rfl, ?_⟩
  exact Received.appendByte (s := s.invalidateFrame) hrec (Nat.lt_of_le_of_lt hlen (by omega)) _

/-- A Raw Frame pushed from awaiting-sync is completed by its last byte, and is then what `buf` holds (R98). -/
theorem pushBytes_rawFrame (hp : p.SizesOk) (hf : isRawFrame p f) (hs : s.state = .awaitingSync) :
    (pushBytes p f s).2 = List.replicate (f.length - 1) .incomplete ++ [.complete f.length] ∧
      (pushBytes p f s).1.state = .awaitingSync ∧ (pushBytes p f s).1.frameValid = true ∧
      Received (pushBytes p f s).1 f := by
  obtain ⟨hmin, hmax, ha, hl, hcrc⟩ := hf
  have hcap := maxTotalExcl_le hp
  obtain ⟨hparts, hbody⟩ := frame_eq_parts (hp.1.trans hmin)
  have hf : frameAddress f :: frameLengthByte f :: frameBody f ++ [frameDigest p (frameBody f)] = f := by
    rw [← hcrc, hbody]
    exact hparts.symm
  have hlen : (frameBody f).length + 3 = f.length := by simpa using congrArg List.length hf
  obtain ⟨hres, hst, hrec⟩ := pushBytes_beforeCrc hp hs ha (hl ▸ hmin) (hl ▸ hmax) (body := frameBody f) (by omega)
  obtain ⟨hres', hst', hvalid, hrec'⟩ := pushByteStep_crc_of_received (p := p) hst hrec (by omega)
  have hpush := pushBytes_append p (frameAddress f :: frameLengthByte f :: frameBody f) [frameDigest p (frameBody f)] s
  rw [hf, pushBytes_singleton, hres, hres', hlen, show (frameBody f).length + 2 = f.length - 1 by omega] at hpush
  rw [hf] at hrec'
  rw [hpush]
  exact ⟨rfl, hst', hvalid, hrec'⟩

/-- DISPATCH of a frame that was received and completed is `dispatch` of its bytes (42_codec_dispatch.md R125). -/
theorem dispatchStep_of_received (hrec : Received s f) (hvalid : s.frameValid = true) (hlen : 4 ≤ f.length) :
    dispatchStep p s = (s, dispatchFrame p f) := by
  obtain ⟨hcur, hbuf⟩ := hrec
  have hf : f = s.bufRead 0 :: s.bufRead 1 :: s.bufRead 2 ::
      (s.bufSlice 3 s.cursor.toNat ++ [s.bufRead s.cursor.toNat]) := by
    rw [← bufSlice_succ s (by omega), ← bufSlice_eq_cons s (by omega), ← bufSlice_eq_cons s (by omega),
      ← bufSlice_eq_cons s (by omega), hcur, hbuf]
  have htag : frameTag f = s.bufRead 2 := by rw [hf]; rfl
  have hpayload : framePayload f = s.bufSlice 3 s.cursor.toNat := by
    rw [hf]
    exact List.dropLast_concat
  rw [dispatchStep, if_pos hvalid, dispatchFrame, htag, hpayload]

end Pushes

/-! ## How many pushes lead back to awaiting-sync (R98) -/

/-- A bound on the pushes that lead to awaiting-sync, whatever the bytes: from awaiting-length the largest target, 62,
is still possible. -/
def pushesToSync (s : State) : Nat :=
  match s.state with
  | .awaitingSync => 0
  | .awaitingLength => 62
  | .reading => s.target.toNat - s.cursor.toNat
  | .awaitingCrc => 1

section PushesToSync

variable {s : State}

theorem pushesToSync_awaitingSync (h : s.state = .awaitingSync) : pushesToSync s = 0 := by simp only [pushesToSync, h]

theorem pushesToSync_awaitingLength (h : s.state = .awaitingLength) : pushesToSync s = 62 := by
  simp only [pushesToSync, h]

theorem pushesToSync_reading (h : s.state = .reading) : pushesToSync s = s.target.toNat - s.cursor.toNat := by
  simp only [pushesToSync, h]

theorem pushesToSync_awaitingCrc (h : s.state = .awaitingCrc) : pushesToSync s = 1 := by simp only [pushesToSync, h]

end PushesToSync

end Sys2Proof.Machine

namespace Sys2Proof.Safety

open Machine

variable {p : Params} {s : State}

/-- Every push outside awaiting-sync comes nearer to it. -/
theorem pushesToSync_pushByteStep_lt (hp : p.SizesOk) (h : Inv p s) (hs : s.state ≠ .awaitingSync) (b : Byte) :
    pushesToSync (pushByteStep p b s).1 < pushesToSync s := by
  have hcap := maxTotalExcl_le hp
  obtain ⟨-, hrow⟩ := h
  cases hst : s.state with
  | awaitingSync => exact absurd hst hs
  | awaitingLength =>
    rw [pushesToSync_awaitingLength hst]
    by_cases hb : b.toNat + 2 < p.minTotal ∨ p.maxTotalExcl ≤ b.toNat + 2
    · rw [pushByteStep_bad_length hst hb, pushesToSync_awaitingSync rfl]
      omega
    · obtain ⟨hcur, -⟩ := (stateRow_awaitingLength hst).1 hrow
      rw [pushByteStep_length hst (by omega) (by omega), pushesToSync_reading rfl, hcur]
      show (BitVec.ofNat 6 (b.toNat + 1)).toNat - 1 < 62
      rw [toNat_target_of_length hp (by omega)]
      omega
  | reading =>
    obtain ⟨-, -, -, hlt, -⟩ := (stateRow_reading hst).1 hrow
    rw [pushesToSync_reading hst, pushByteStep_reading hst]
    split
    · rw [pushesToSync_awaitingCrc rfl]
      omega
    · rw [pushesToSync_reading rfl]
      show s.target.toNat - (s.cursor + 1).toNat < _
      rw [toNat_cursor_succ (by omega)]
      omega
  | awaitingCrc =>
    have hcur := CrcRow.cursor_mem hp ((stateRow_awaitingCrc hst).1 hrow)
    rw [pushesToSync_awaitingCrc hst]
    by_cases hcrc : frameDigest p (s.bufSlice 2 (s.cursor.toNat + 1)) = b
    · rw [pushByteStep_crc hst (by omega) hcrc, pushesToSync_awaitingSync rfl]
      omega
    · rw [pushByteStep_bad_crc hst (by omega) hcrc, pushesToSync_awaitingSync rfl]
      omega

theorem pushesToSync_le (hp : p.SizesOk) (h : Inv p s) : pushesToSync s ≤ 62 := by
  have hcap := maxTotalExcl_le hp
  obtain ⟨-, hrow⟩ := h
  cases hst : s.state with
  | awaitingSync => rw [pushesToSync_awaitingSync hst]; omega
  | awaitingLength => rw [pushesToSync_awaitingLength hst]
  | reading =>
    obtain ⟨⟨-, hmax⟩, -⟩ := (stateRow_reading hst).1 hrow
    rw [pushesToSync_reading hst]
    omega
  | awaitingCrc => rw [pushesToSync_awaitingCrc hst]; omega

/-- Among as many pushes as the bound says, some number of first ones ends in awaiting-sync. -/
theorem exists_take_state_awaitingSync (hp : p.SizesOk) (h : Inv p s) {bs : List Byte}
    (hlen : pushesToSync s ≤ bs.length) :
    ∃ k ≤ bs.length, (pushBytes p (bs.take k) s).1.state = .awaitingSync := by
  induction bs generalizing s with
  | nil =>
    refine ⟨0, le_rfl, by_contra fun hs => ?_⟩
    exact Nat.not_lt_zero _ ((pushesToSync_pushByteStep_lt hp h hs 0).trans_le hlen)
  | cons b bs ih =>
    by_cases hs : s.state = .awaitingSync
    · exact ⟨0, Nat.zero_le _, hs⟩
    · have hlt := pushesToSync_pushByteStep_lt hp h hs b
      have hinv : Inv p ((pushByteStep p b s).1.reply (pushByteStep p b s).2) :=
        (inv_reply _).2 (inv_pushByteStep hp b h)
      obtain ⟨k, hk, hsync⟩ := ih hinv (Nat.le_of_lt_succ (hlt.trans_le hlen))
      exact ⟨k + 1, Nat.succ_le_succ hk, hsync⟩

end Sys2Proof.Safety

/-! ## What the codecs encode, they decode (42_codec_dispatch.md R128, 43_rc_channels.md R141, R146) -/

namespace Sys2Proof.Machine

/-! ### The channel bit stream -/

/-- Both tables mask a value to the width it is kept in (R142, R144), which drops no bit that is read. -/
theorem getLsbD_ofNat_and_mask {w : Nat} (v : Nat) {j : Nat} (hj : j < w) :
    (BitVec.ofNat w (v &&& (2 ^ w - 1))).getLsbD j = v.testBit j := by
  rw [Nat.and_two_pow_sub_one_eq_mod, BitVec.getLsbD_ofNat]
  simp [hj]

theorem getLsbD_channelOf (v : Nat) {j : Nat} (hj : j < 11) : (channelOf v).getLsbD j = v.testBit j :=
  getLsbD_ofNat_and_mask v hj

theorem getLsbD_payloadByteOf (v : Nat) {j : Nat} (hj : j < 8) : (payloadByteOf v).getLsbD j = v.testBit j :=
  getLsbD_ofNat_and_mask v hj

/-- Bit `j` of decoded channel `i` is bit `11 * i + j` of the payload's bit stream (R141), by R142's rows. -/
theorem getLsbD_rcUnpack (payload : List Byte) {i j : Nat} (hi : i < 16) (hj : j < 11) :
    (rcUnpack payload)[i].getLsbD j = (payload.getD ((11 * i + j) / 8) 0).getLsbD ((11 * i + j) % 8) := by
  interval_cases i <;>
    simp only [rcUnpack, rcTable, Vector.getElem_mk, List.getElem_toArray, List.getElem_cons_zero,
      List.getElem_cons_succ, getLsbD_channelOf _ hj, Nat.testBit_or, Nat.testBit_shiftLeft, Nat.testBit_shiftRight,
      BitVec.testBit_toNat] <;>
    interval_cases j <;> simp

/-- Bit `k` of encoded byte `q` is bit `8 * q + k` of the channels' bit stream (R141), by R144's rows. -/
theorem getLsbD_rcPack (ch : Channels) {q k : Nat} (hq : q < 22) (hk : k < 8) :
    ((rcPack ch).getD q 0).getLsbD k = (ch[(8 * q + k) / 11]'(by omega)).getLsbD ((8 * q + k) % 11) := by
  interval_cases q <;>
    simp only [rcPack, rcBytes, List.getD_cons_zero, List.getD_cons_succ, getLsbD_payloadByteOf _ hk, Nat.testBit_or,
      Nat.testBit_shiftLeft, Nat.testBit_shiftRight, BitVec.testBit_toNat] <;>
    interval_cases k <;> simp

@[simp] theorem length_rcPack (ch : Channels) : (rcPack ch).length = 22 := rfl

/-- The two tables read and write the same stream (R146). -/
@[simp] theorem rcUnpack_rcPack (ch : Channels) : rcUnpack (rcPack ch) = ch := by
  ext i hi j hj
  rw [← BitVec.getLsbD_eq_getElem, ← BitVec.getLsbD_eq_getElem, getLsbD_rcUnpack _ hi hj,
    getLsbD_rcPack ch (by omega) (by omega)]
  simp only [Nat.div_add_mod]
  congr 2 <;> omega

/-! ### The altitude fields -/

/-- The big-endian altitude field and the signed byte read back, whatever follows them (R152, R153). -/
@[simp] theorem baroUnpack_baroPack (p : Params) (alt : BitVec 16) (vs : BitVec 8) :
    baroUnpack (baroPack p alt vs) = .baroAltitude alt vs := by
  have halt : alt.extractLsb' 8 8 ++ alt.extractLsb' 0 8 = alt :=
    (BitVec.extractLsb'_append_extractLsb'_eq_extractLsb' rfl).trans BitVec.extractLsb'_eq_self
  have hnum : (alt.extractLsb' 8 8).toNat <<< 8 ||| (alt.extractLsb' 0 8).toNat = alt.toNat := by
    rw [← BitVec.toNat_append, halt]
  show Record.baroAltitude (BitVec.ofNat 16 ((alt.extractLsb' 8 8).toNat <<< 8 ||| (alt.extractLsb' 0 8).toNat))
    (BitVec.ofInt 8 (sext8 (toU8 vs.toInt))) = _
  rw [hnum, toU8_toInt, ofInt_sext8, BitVec.ofNat_toNat, BitVec.setWidth_eq]

/-! ### Each codec of the registry -/

section Codecs

variable {p : Params} {r : Record} {payload : List Byte}

/-- The length rule lets a payload of the codec's own size through (R121). -/
theorem decodeChecked_of_length {m : Nat} {fixed : Bool} (hmin : m ≤ payload.length)
    (hfixed : fixed = true → payload.length = m) (content : List Byte → Except ErrorKind Record) :
    decodeChecked p m fixed content payload = content payload := by
  rw [decodeChecked_eq, if_pos ⟨hmin, fun _ => hfixed⟩]

theorem linkstatDecodeRecord_toList (p : Params) (f : LinkFields) :
    linkstatDecodeRecord p f.toList = .ok (.linkStatistics f) := by
  have hlen : f.toList.length = linkstatPayload := Vector.length_toList
  rw [linkstatDecodeRecord, decodeChecked_of_length hlen.ge fun _ => hlen, linkFieldsOf_toList]

theorem rcDecodeRecord_rcPack (p : Params) (ch : Channels) : rcDecodeRecord p (rcPack ch) = .ok (.rcChannels ch) := by
  have hlen : (rcPack ch).length = rcPayload := length_rcPack ch
  rw [rcDecodeRecord, decodeChecked_of_length hlen.ge fun _ => hlen, rcUnpack_rcPack]

theorem baroDecodeRecord_baroPack (h : 3 ≤ p.baroPayload) (alt : BitVec 16) (vs : BitVec 8) :
    baroDecodeRecord p (baroPack p alt vs) = .ok (.baroAltitude alt vs) := by
  have hlen : (baroPack p alt vs).length = p.baroPayload := by rw [length_baroPack, max_eq_right h]
  rw [baroDecodeRecord, decodeChecked_of_length hlen.ge fun _ => hlen, baroUnpack_baroPack]

/-- What R101 asks of the codecs of REGISTRY_EXTRA: the codec of the record `r`, if it is one of them, keeps its own
length rule on `r` and decodes what it encodes. -/
def ExtraRoundTrips (p : Params) (r : Record) : Prop :=
  ∀ c ∈ p.registryExtra, ∀ fields, r = .extra c.tag fields → c.minPayload ≤ (c.encode fields).length ∧
    (c.fixedSize = true → (c.encode fields).length = c.minPayload) ∧ c.decode (c.encode fields) = some fields

theorem extraDecodeRecord_encode {c : ExtraCodec} {fields : List Byte} (hmin : c.minPayload ≤ (c.encode fields).length)
    (hfixed : c.fixedSize = true → (c.encode fields).length = c.minPayload)
    (hdec : c.decode (c.encode fields) = some fields) :
    extraDecodeRecord p c (c.encode fields) = .ok (.extra c.tag fields) := by
  have htake : (if c.fixedSize then (c.encode fields).take c.minPayload else c.encode fields) = c.encode fields := by
    split
    next h => rw [List.take_of_length_le (hfixed h).le]
    next => rfl
  rw [extraDecodeRecord, decodeChecked_of_length hmin hfixed]
  simp only [htake, hdec]

/-- A codec of the registry decodes the payload it makes of a record of its variant (R128, R101). -/
theorem decode_of_payloadOf (hbaro : 3 ≤ p.baroPayload) (hextra : ExtraRoundTrips p r) {c : Codec}
    (hc : c ∈ registry p) (h : c.payloadOf r = some payload) : c.decode payload = .ok r := by
  simp only [registry, List.cons_append, List.nil_append, List.mem_cons, List.mem_map] at hc
  rcases hc with rfl | rfl | rfl | ⟨e, he, rfl⟩
  · cases r <;> cases h
    exact linkstatDecodeRecord_toList p _
  · cases r <;> cases h
    exact rcDecodeRecord_rcPack p _
  · cases r <;> cases h
    exact baroDecodeRecord_baroPack hbaro _ _
  · cases r with
    | extra tag fields =>
      obtain ⟨htag, hpay⟩ := Option.ite_none_right_eq_some.1 h
      cases htag
      cases hpay
      obtain ⟨hmin, hfixed, hdec⟩ := hextra e he fields rfl
      exact extraDecodeRecord_encode hmin hfixed hdec
    | linkStatistics | rcChannels | baroAltitude => cases h

/-- Where the registry's tags are distinct, a codec is the one found under its tag (R123, R124). -/
theorem dispatchPayload_packetType (h : p.tags.Nodup) {c : Codec} (hc : c ∈ registry p) (payload : List Byte) :
    dispatchPayload p c.packetType payload = decodeResult (c.decode payload) := by
  have hinj := List.inj_on_of_nodup_map (map_packetType_registry p ▸ h)
  have hfind : (registry p).find? (fun c' => c'.packetType == c.packetType) = some c := by
    cases hf : (registry p).find? (fun c' => c'.packetType == c.packetType) with
    | none => exact absurd (List.find?_eq_none.1 hf c hc) (by simp)
    | some c' =>
      have htag : c'.packetType = c.packetType := by simpa using List.find?_some hf
      rw [hinj (List.mem_of_find?_eq_some hf) hc htag]
  rw [dispatchPayload, hfind]

/-- The tag and payload that ENCODE_FRAME finds for a record come from one codec of the registry (R171). -/
theorem encodePayload_ok {tag : Byte} (h : encodePayload p r = .ok (tag, payload)) :
    ∃ c ∈ registry p, c.packetType = tag ∧ c.payloadOf r = some payload := by
  unfold encodePayload at h
  split at h
  next x hx =>
    cases h
    obtain ⟨c, hc, hmap⟩ := List.exists_of_findSome?_eq_some hx
    obtain ⟨payload', hpay, heq⟩ := Option.map_eq_some_iff.1 hmap
    cases heq
    exact ⟨c, hc, rfl, hpay⟩
  next => cases h

/-- Dispatch of a record's tag and payload is the record (R101). -/
theorem dispatchPayload_of_encodePayload (hp : p.Ok) (hextra : ExtraRoundTrips p r) {tag : Byte}
    (h : encodePayload p r = .ok (tag, payload)) : dispatchPayload p tag payload = .packet (.record r) := by
  obtain ⟨-, -, htags, hbaro⟩ := hp
  obtain ⟨c, hc, rfl, hpay⟩ := encodePayload_ok h
  rw [dispatchPayload_packetType htags hc, decode_of_payloadOf hbaro hextra hc hpay]
  rfl

end Codecs

/-! ## What ENCODE_FRAME writes (45_frame_encoder.md R171) -/

section Encode

variable {p : Params} {destination tag : Byte} {r : Record} {cap n : Nat} {s t : State} {payload bytes : List Byte}

theorem encodeInto_eq_ok_iff {bs : List Byte} : encodeInto cap bytes = .ok bs ↔ bytes.length ≤ cap ∧ bytes = bs := by
  unfold encodeInto
  split
  next h => simp [h]
  next h => simp [Nat.le_of_not_lt h]

/-- The frame is written where the payload fits the scratch and the frame fits the capacity. -/
theorem encodeFrameBytes_written
    (h : (encodeFrameBytes p destination tag payload cap s).2 = .written n bytes) :
    payload.length ≤ p.encScratch ∧ payload.length + 4 ≤ cap ∧ n = payload.length + 4 ∧
      bytes = rawFrame p destination tag payload := by
  unfold encodeFrameBytes at h
  split at h
  next => cases h
  next scratch hx =>
    obtain ⟨hfit, rfl⟩ := encodeInto_eq_ok_iff.1 hx
    rcases deliver_cases cap (rawFrame p destination tag payload) s with ⟨-, e⟩ | ⟨hcap, e⟩ <;>
      rw [e] at h <;> cases h
    exact ⟨hfit, by rwa [length_rawFrame] at hcap, length_rawFrame .., rfl⟩

theorem encodeFrameWith_written (h : encodeFrameWith p destination r cap s = .next t)
    (ht : t.answer = some (.written n bytes)) :
    ∃ tag payload, destination ∈ p.addrSet ∧ encodePayload p r = .ok (tag, payload) ∧
      payload.length ≤ p.encScratch ∧ payload.length + 4 ≤ cap ∧ n = payload.length + 4 ∧
      bytes = rawFrame p destination tag payload := by
  unfold encodeFrameWith at h
  split at h
  next hd =>
    split at h
    next => cases h
    next tag payload hx =>
      rw [respond_eq_next h] at ht
      exact ⟨tag, payload, hd, hx, encodeFrameBytes_written (Option.some.inj ht)⟩
  next => cases h

/-- The frame of a payload that fits the scratch is a Raw Frame, where it reaches the smallest size (R172, R173). -/
theorem isRawFrame_of_fits (hp : p.SizesOk) (hd : destination ∈ p.addrSet) (hfit : payload.length ≤ p.encScratch)
    (hmin : p.minTotal ≤ payload.length + 4) : isRawFrame p (rawFrame p destination tag payload) := by
  have hmax : payload.length ≤ p.maxPayloadRx := by
    have hscratch := hp.2.2
    rw [Params.maxPayloadRx]
    omega
  rw [isRawFrame_rawFrame_iff hp]
  simp [frameOperandsOk, hd, hmin, hmax]

end Encode

end Sys2Proof.Machine

/-! ## The obligations on the frame state machine -/

namespace Sys2Proof.Proofs

open Machine Safety

/-- Settles O49: the frame ENCODE_FRAME wrote is a Raw Frame, pushing it leaves it in `buf`, and its tag finds the codec
that made its payload. -/
theorem encodePushDispatchRoundTrip : Obligations.EncodePushDispatchRoundTrip := by
  intro p d r cap n s t u bytes hp hextra hexec hanswer hmin hsync
  obtain ⟨tag, payload, hd, hpay, hfit, -, rfl, rfl⟩ := encodeFrameWith_written hexec hanswer
  have hraw := isRawFrame_of_fits (tag := tag) hp.1 hd hfit hmin
  obtain ⟨hres, -, hvalid, hrec⟩ := pushBytes_rawFrame hp.1 hraw hsync
  rw [length_rawFrame] at hres
  have hdispatch : dispatchFrame p (rawFrame p d tag payload) = .packet (.record r) := by
    rw [dispatchFrame, frameTag_rawFrame, framePayload_rawFrame]
    exact dispatchPayload_of_encodePayload hp hextra hpay
  refine ⟨hres, ?_⟩
  rw [execWith, dispatchWith, dispatchStep_of_received hrec hvalid (by simp), hdispatch]
  rfl

/-- Settles O16, by the header, the body and the CRC byte of the frame. -/
theorem rawFramePushedFromSyncCompletes : Obligations.RawFramePushedFromSyncCompletes := by
  intro p f s hp hf hs
  obtain ⟨hres, hsync, hvalid, hrec⟩ := pushBytes_rawFrame hp hf hs
  exact ⟨hres, hsync, hvalid, hrec.2⟩

/-- Settles O15: under R31's invariant each push outside awaiting-sync comes nearer to it. -/
theorem parserReturnsToSyncWithinSixtyTwoPushes : Obligations.ParserReturnsToSyncWithinSixtyTwoPushes := by
  intro p s bs hp h hlen
  rw [← hlen]
  exact exists_take_state_awaitingSync hp h (hlen ▸ pushesToSync_le hp h)

/-- Settles O10: one byte by the rule of R94, many by appending them one after the other. -/
theorem readingTakesExactlyTypeAndPayload : Obligations.ReadingTakesExactlyTypeAndPayload := by
  refine ⟨fun p s b hs hc => ?_, fun p s bs hs hc hmin _ hlen => ?_⟩
  · rw [execWith_pushByte, pushByteStep_reading hs, appendByte_invalidateFrame hc]
    exact ⟨_, rfl, rfl, rfl, rfl, rfl, rfl⟩
  · have hone : s.cursor.toNat = 1 := by rw [hc]; rfl
    obtain ⟨hres, hread⟩ := pushBytes_reading (p := p) (bs := bs) hs (by omega) (by omega)
    rw [hread.state_eq_awaitingCrc_iff, hread.state_eq_reading_iff, hread.cursor, hread.target, hone]
    exact ⟨hres, Nat.add_comm _ _, by omega, by omega⟩

/-- Settles O13, by the two outcomes of R93. -/
theorem lengthByteSetsTheTargetOrIsRejected : Obligations.LengthByteSetsTheTargetOrIsRejected := by
  refine ⟨fun p s b hp hs => ⟨fun hb => ?_, fun hmin hmax => ?_⟩, fun b => ?_⟩
  · rw [execWith_pushByte, pushByteStep_bad_length hs hb]
    exact ⟨_, rfl, rfl, rfl, rfl, rfl, rfl⟩
  · have htarget := toNat_target_of_length hp hmax
    have hfour := hp.1
    have hcap := maxTotalExcl_le hp
    have hlo : 3 ≤ b.toNat + 1 := by omega
    have hhi : b.toNat + 1 ≤ 62 := by omega
    rw [execWith_pushByte, pushByteStep_length hs hmin hmax]
    exact ⟨_, rfl, rfl, rfl, htarget, hlo.trans_eq htarget.symm, htarget.trans_le hhi, rfl, rfl⟩
  · show 4 ≤ b.toNat + 2 ∧ b.toNat + 2 < 64 ↔ _
    omega

/-- Settles O3: the reset clears what PUSH_BYTE clears, so a rejected byte then changes no register. -/
theorem resetOperationRestoresTheParser : Obligations.ResetOperationRestoresTheParser := by
  intro s
  refine ⟨_, rfl, rfl, rfl, rfl, rfl, rfl, rfl, fun b hb => ?_⟩
  rw [exec_pushByte, pushByteStep_not_address rfl hb]
  rfl

/-- Settles O6, by the two outcomes of R91. -/
theorem pushInAwaitingSync : Obligations.PushInAwaitingSync := by
  refine fun s b hs => ⟨fun hb => ?_, fun hb => ?_⟩
  · rw [exec_pushByte, pushByteStep_address hs hb]
    rfl
  · rw [exec_pushByte, pushByteStep_not_address hs hb]
    rfl

/-- Settles O7, by the two outcomes of R93 at the default build's sizes. -/
theorem pushInAwaitingLength : Obligations.PushInAwaitingLength := by
  refine fun s b hs => ⟨fun hmin hmax => ?_, fun hb => ?_⟩
  · have hlo : params.minTotal ≤ b.toNat + 2 := Nat.add_le_add_right hmin 2
    have hhi : b.toNat + 2 < params.maxTotalExcl := Nat.add_lt_add_right (Nat.lt_succ_of_le hmax) 2
    rw [exec_pushByte, pushByteStep_length hs hlo hhi]
    rfl
  · have hout : b.toNat + 2 < params.minTotal ∨ params.maxTotalExcl ≤ b.toNat + 2 :=
      hb.imp (Nat.add_lt_add_right · 2) (Nat.add_le_add_right · 2)
    rw [exec_pushByte, pushByteStep_bad_length hs hout]
    rfl

/-- Settles O8, by the rule of R94. -/
theorem pushInReading : Obligations.PushInReading := by
  intro s b hs hc
  rw [exec_pushByte, pushByteStep_reading hs, appendByte_invalidateFrame hc, toNat_cursor_succ hc]
  rfl

/-- Settles O9, by the two outcomes of R95: the digest is of bytes that stood in `buf` before the push. -/
theorem pushInAwaitingCrc : Obligations.PushInAwaitingCrc := by
  intro s b hs hc
  rw [exec_pushByte, show crc8 params.crcPoly = frameDigest params from rfl]
  by_cases hcrc : frameDigest params (s.bufSlice 2 (s.cursor.toNat + 1)) = b
  · rw [if_pos hcrc, pushByteStep_crc hs hc hcrc, appendByte_invalidateFrame hc]
    rfl
  · rw [if_neg hcrc, pushByteStep_bad_crc hs hc hcrc, appendByte_invalidateFrame hc]
    rfl

end Sys2Proof.Proofs

/-! ## CRC-8 (41_crc8.md R111 to R117) -/

namespace Sys2Proof.Machine

section Crc

variable (poly : Byte)

@[simp] theorem crcShift_zero : crcShift poly 0 = 0 := rfl

/-- One bit of R111 is linear: the shift is, and the polynomial is subtracted by the xor of the top bits. -/
theorem crcShift_xor (a b : Byte) : crcShift poly (a ^^^ b) = crcShift poly a ^^^ crcShift poly b := by
  simp only [crcShift, BitVec.msb_xor, BitVec.shiftLeft_xor_distrib]
  cases a.msb <;> cases b.msb
  case false.false => rfl
  case false.true => exact BitVec.xor_assoc ..
  case true.false =>
    show a <<< 1 ^^^ b <<< 1 ^^^ poly = (a <<< 1 ^^^ poly) ^^^ b <<< 1
    ac_rfl
  case true.true =>
    show a <<< 1 ^^^ b <<< 1 = (a <<< 1 ^^^ poly) ^^^ (b <<< 1 ^^^ poly)
    calc a <<< 1 ^^^ b <<< 1 = a <<< 1 ^^^ b <<< 1 ^^^ (poly ^^^ poly) := by rw [BitVec.xor_self, BitVec.xor_zero]
      _ = (a <<< 1 ^^^ poly) ^^^ (b <<< 1 ^^^ poly) := by ac_rfl

theorem iterate_crcShift_xor (n : Nat) (a b : Byte) :
    (crcShift poly)^[n] (a ^^^ b) = (crcShift poly)^[n] a ^^^ (crcShift poly)^[n] b := by
  induction n generalizing a b with
  | zero => rfl
  | succ n ih => rw [Function.iterate_succ_apply, crcShift_xor, ih]; rfl

/-- CRC8_UPDATE is linear in its two bytes together. -/
theorem crc8Update_xor (c d x y : Byte) :
    crc8Update poly (c ^^^ d) (x ^^^ y) = crc8Update poly c x ^^^ crc8Update poly d y := by
  rw [crc8Update, show c ^^^ d ^^^ (x ^^^ y) = (c ^^^ x) ^^^ (d ^^^ y) by ac_rfl]
  exact iterate_crcShift_xor poly 8 _ _

/-- A byte equal to the running CRC clears it. -/
@[simp] theorem crc8Update_self (c : Byte) : crc8Update poly c c = 0 := by
  rw [crc8Update, BitVec.xor_self]
  exact Function.iterate_fixed (crcShift_zero poly) 8

theorem crc8From_append (c : Byte) (a b : List Byte) :
    crc8From poly c (a ++ b) = crc8From poly (crc8From poly c a) b :=
  List.foldl_append

/-- The fold is linear in its start and its bytes together. -/
theorem crc8From_zipWith_xor {a b : List Byte} (h : a.length = b.length) (c d : Byte) :
    crc8From poly (c ^^^ d) (List.zipWith (fun x y => x ^^^ y) a b) = crc8From poly c a ^^^ crc8From poly d b := by
  induction a generalizing b c d with
  | nil =>
    obtain rfl := List.eq_nil_of_length_eq_zero h.symm
    rfl
  | cons x a ih =>
    cases b with
    | nil => cases h
    | cons y b =>
      show crc8From poly (crc8Update poly (c ^^^ d) (x ^^^ y)) _ = _
      rw [crc8Update_xor]
      exact ih (Nat.succ.inj h) _ _

/-- R114 (c): the digest does not see a leading zero byte. -/
theorem crc8_zero_cons (bytes : List Byte) : crc8 poly (0 :: bytes) = crc8 poly bytes := by
  show crc8From poly (crc8Update poly 0 0) bytes = _
  rw [crc8Update_self]
  rfl

/-- R114 (d): a message and its digest have the digest zero. -/
theorem crc8_append_crc8 (m : List Byte) : crc8 poly (m ++ [crc8 poly m]) = 0 := by
  rw [crc8, crc8From_append]
  exact crc8Update_self poly (crc8 poly m)

end Crc

theorem execWith_crc8Digest (p : Params) (bytes : List Byte) (s : State) :
    execWith p (.crc8Digest bytes) s = .next (s.reply (.crc (frameDigest p bytes))) := rfl

/-- R113's table, entry by entry, against eight one-bit steps. -/
theorem iterate_crcShift_eq_crcTable : ∀ x : Byte, (crcShift 0xD5)^[8] x = crcTable.getD x.toNat 0 := by
  decide +kernel

end Sys2Proof.Machine

/-! ## The obligations on the CRC -/

namespace Sys2Proof.Proofs

open Machine

/-- Settles O24: CRC8_UPDATE sees only the xor of its two bytes, which has 256 values. -/
theorem crcTableIsTheBitSerialStep : Obligations.CrcTableIsTheBitSerialStep :=
  fun crc byte => iterate_crcShift_eq_crcTable (crc ^^^ byte)

/-- Settles O25, by the linearity of the one-bit step. -/
theorem crcAlgebraicLaws : Obligations.CrcAlgebraicLaws := fun poly =>
  ⟨rfl, fun _ _ h => crc8From_zipWith_xor poly h 0 0, crc8_zero_cons poly, crc8_append_crc8 poly,
    crc8From_append poly 0⟩

/-- Settles O23: the operation replies with the build's fold. The kernel evaluates the five digests of R112. -/
theorem crcDigestFoldsTheUpdate : Obligations.CrcDigestFoldsTheUpdate := by
  refine ⟨execWith_crc8Digest, fun bytes s => ?_, fun bytes => ⟨_, rfl⟩, crc8_zero_cons, ?_⟩
  · rw [exec_eq_execWith, execWith_crc8Digest, frameDigest_params]
    rfl
  · decide +kernel

/-- Settles O26, by running the digest with each of the 256 polynomials. R114's laws hold one polynomial fixed, and do
not help here. -/
theorem sourceFrameAdmitsThreePolynomials : Obligations.SourceFrameAdmitsThreePolynomials := by
  unfold Obligations.SourceFrameAdmitsThreePolynomials
  decide +kernel

end Sys2Proof.Proofs

/-! ## The decode length rule, codec by codec (42_codec_dispatch.md R121) -/

namespace Sys2Proof.Machine

theorem getD_take (bs : List Byte) {i m : Nat} (h : i < m) : (bs.take m).getD i 0 = bs.getD i 0 := by
  rw [List.getD_eq_getElem?_getD, List.getElem?_take_of_lt h, List.getD_eq_getElem?_getD]

/-! ### The content of a payload depends on its first bytes only -/

@[simp] theorem linkFieldsOf_take (bs : List Byte) : linkFieldsOf (bs.take 10) = linkFieldsOf bs := by
  simp only [linkFieldsOf_eq_ofFn, getD_take bs (Fin.is_lt _)]

theorem rcTable_congr {b c : Nat → Nat} (h : ∀ k < 22, b k = c k) : rcTable b = rcTable c := by
  simp [rcTable, h]

@[simp] theorem rcUnpack_take (bs : List Byte) : rcUnpack (bs.take 22) = rcUnpack bs :=
  rcTable_congr fun _ hk => by rw [getD_take bs hk]

theorem baroUnpack_take {m : Nat} (h : 3 ≤ m) (bs : List Byte) : baroUnpack (bs.take m) = baroUnpack bs := by
  rw [baroUnpack, getD_take bs (by omega), getD_take bs (by omega), getD_take bs (by omega), baroUnpack]

/-! ### The lengths that are rejected, and what the others decode to -/

section LengthRule

variable {p : Params} {payload : List Byte} {m : Nat} {fixed : Bool}

theorem decodeChecked_rejects
    (h : payload.length < m ∨ (p.fixedLenExact = true ∧ fixed = true ∧ payload.length ≠ m))
    (content : List Byte → Except ErrorKind Record) :
    decodeChecked p m fixed content payload = .error .invalidPayloadLength := by
  rw [decodeChecked_eq, if_neg]
  rintro ⟨hmin, hexact⟩
  rcases h with hlt | ⟨hp, hf, hne⟩
  · omega
  · exact hne (hexact hp hf)

theorem decodeChecked_accepts (hmin : m ≤ payload.length)
    (hexact : p.fixedLenExact = true → fixed = true → payload.length = m)
    (content : List Byte → Except ErrorKind Record) :
    decodeChecked p m fixed content payload = content payload := by
  rw [decodeChecked_eq, if_pos ⟨hmin, hexact⟩]

/-- The rejection for a record whose size is fixed, as the three codecs' records are. -/
theorem decodeChecked_fixed_rejects (h : payload.length < m ∨ (p.fixedLenExact = true ∧ payload.length ≠ m))
    (content : List Byte → Except ErrorKind Record) :
    decodeChecked p m true content payload = .error .invalidPayloadLength :=
  decodeChecked_rejects (h.imp_right fun ⟨hp, hne⟩ => ⟨hp, rfl, hne⟩) content

theorem linkstatDecodeRecord_rejects (h : payload.length < 10 ∨ (p.fixedLenExact = true ∧ payload.length ≠ 10)) :
    linkstatDecodeRecord p payload = .error .invalidPayloadLength :=
  decodeChecked_fixed_rejects h _

theorem linkstatDecodeRecord_accepts (hmin : 10 ≤ payload.length)
    (hexact : p.fixedLenExact = true → payload.length = 10) :
    linkstatDecodeRecord p payload = .ok (.linkStatistics (linkFieldsOf (payload.take 10))) := by
  rw [linkstatDecodeRecord, linkstatPayload, decodeChecked_accepts hmin fun hp _ => hexact hp, linkFieldsOf_take]

theorem rcDecodeRecord_rejects (h : payload.length < 22 ∨ (p.fixedLenExact = true ∧ payload.length ≠ 22)) :
    rcDecodeRecord p payload = .error .invalidPayloadLength :=
  decodeChecked_fixed_rejects h _

theorem rcDecodeRecord_accepts (hmin : 22 ≤ payload.length)
    (hexact : p.fixedLenExact = true → payload.length = 22) :
    rcDecodeRecord p payload = .ok (.rcChannels (rcUnpack (payload.take 22))) := by
  rw [rcDecodeRecord, rcPayload, decodeChecked_accepts hmin fun hp _ => hexact hp, rcUnpack_take]

theorem baroDecodeRecord_rejects
    (h : payload.length < p.baroPayload ∨ (p.fixedLenExact = true ∧ payload.length ≠ p.baroPayload)) :
    baroDecodeRecord p payload = .error .invalidPayloadLength :=
  decodeChecked_fixed_rejects h _

theorem baroDecodeRecord_accepts (hthree : 3 ≤ p.baroPayload) (hmin : p.baroPayload ≤ payload.length)
    (hexact : p.fixedLenExact = true → payload.length = p.baroPayload) :
    baroDecodeRecord p payload = .ok (baroUnpack (payload.take p.baroPayload)) := by
  rw [baroDecodeRecord, decodeChecked_accepts hmin fun hp _ => hexact hp, baroUnpack_take hthree]

end LengthRule

/-! ### The operations reply with the codec's decode and encode -/

theorem execWith_linkstatDecode (p : Params) (payload : List Byte) (s : State) :
    execWith p (.linkstatDecode payload) s = .next (s.reply (decodeResult (linkstatDecodeRecord p payload))) := rfl

theorem execWith_rcDecode (p : Params) (payload : List Byte) (s : State) :
    execWith p (.rcDecode payload) s = .next (s.reply (decodeResult (rcDecodeRecord p payload))) := rfl

theorem execWith_baroDecode (p : Params) (payload : List Byte) (s : State) :
    execWith p (.baroDecode payload) s = .next (s.reply (decodeResult (baroDecodeRecord p payload))) := rfl

/-- LINKSTAT_DECODE of the default build takes any payload of ten bytes or more (R126). -/
theorem exec_linkstatDecode {payload : List Byte} (h : 10 ≤ payload.length) (s : State) :
    exec (.linkstatDecode payload) s =
      .next (s.reply (.packet (.record (.linkStatistics (linkFieldsOf (payload.take 10)))))) := by
  rw [exec_eq_execWith, execWith_linkstatDecode, linkstatDecodeRecord_accepts h (by simp [params])]
  rfl

/-- LINKSTAT_ENCODE with room for the ten fields (R127). -/
theorem exec_linkstatEncode (f : LinkFields) {cap : Nat} (h : 10 ≤ cap) (s : State) :
    exec (.linkstatEncode f cap) s = .next ((s.outWrite f.toList).reply (.written 10 f.toList)) := by
  have hlen : f.toList.length = 10 := Vector.length_toList
  rw [exec_eq_execWith, execWith, deliver_fits (by omega), hlen, respond_next]

/-! ## Dispatch of a Raw Frame and of the held frame (42_codec_dispatch.md R124, R125) -/

section Dispatch

variable {p : Params} {f : List Byte}

theorem framePayload_eq_take (f : List Byte) : framePayload f = (f.drop 3).take (f.length - 4) := by
  rw [framePayload, List.dropLast_eq_take, List.length_drop, Nat.sub_sub]

/-- `dispatch` of a frame is that of its tag and its payload view, wherever they are known. -/
theorem dispatchFrame_eq {tag : Byte} (h : f[2]? = some tag) :
    dispatchFrame p f = dispatchPayload p tag ((f.drop 3).take (f.length - 4)) := by
  have htag : frameTag f = tag := by rw [frameTag, List.getD_eq_getElem?_getD, h, Option.getD_some]
  rw [dispatchFrame, htag, framePayload_eq_take]

theorem dispatchPayload_extra (h : p.tags.Nodup) {c : ExtraCodec} (hc : c ∈ p.registryExtra) (payload : List Byte) :
    dispatchPayload p c.tag payload = decodeResult (extraDecodeRecord p c payload) :=
  dispatchPayload_packetType (c := extraCodec p c) h (List.mem_append_right _ (List.mem_map_of_mem hc)) payload

/-! A codec of REGISTRY_EXTRA on a payload of accepted length: its content check finds a record, or it does not. -/

section Extra

variable {c : ExtraCodec} {payload : List Byte} (hmin : c.minPayload ≤ payload.length)
  (hexact : p.fixedLenExact = true → c.fixedSize = true → payload.length = c.minPayload)

include hmin hexact

theorem extraDecodeRecord_of_decode {fields : List Byte}
    (h : c.decode (if c.fixedSize then payload.take c.minPayload else payload) = some fields) :
    extraDecodeRecord p c payload = .ok (.extra c.tag fields) := by
  rw [extraDecodeRecord, decodeChecked_accepts hmin hexact, h]

theorem extraDecodeRecord_of_no_decode
    (h : c.decode (if c.fixedSize then payload.take c.minPayload else payload) = none) :
    extraDecodeRecord p c payload = .error .invalidPayload := by
  rw [extraDecodeRecord, decodeChecked_accepts hmin hexact, h]

end Extra

theorem received_bufSlice (s : State) : Received s (s.bufSlice 0 (s.cursor.toNat + 1)) := by
  simp [Received]

theorem execWith_dispatch (p : Params) (s : State) :
    execWith p .dispatch s = .next (s.reply (dispatchStep p s).2) := by
  rw [execWith, dispatchWith, dispatchStep]
  split <;> rfl

/-- DISPATCH reads no earlier result. -/
theorem dispatchStep_reply (p : Params) (s : State) (r : Result) :
    (dispatchStep p (s.reply r)).2 = (dispatchStep p s).2 := by
  unfold dispatchStep
  rw [State.reply_frameValid]
  split <;> rfl

end Dispatch

/-! ## What an operation reports written, and what it leaves of the output buffer (42_codec_dispatch.md R129) -/

section Output

variable {p : Params} {s t : State}

theorem outRead_outWrite (s : State) (bytes : List Byte) (a : Nat) :
    (s.outWrite bytes).outRead a = if a < bytes.length then bytes[a]? else s.outRead a := by
  simp [State.outRead, Memory.byteAt_storeAll]

theorem pushByteStep_output (p : Params) (b : Byte) (s : State) :
    (pushByteStep p b s).1.outBuffer = s.outBuffer ∧ ∀ n bytes, (pushByteStep p b s).2 ≠ .written n bytes := by
  rcases pushByteStep_cases p b s with
    ⟨-, -, e⟩ | ⟨-, -, e⟩ | ⟨-, -, -, e⟩ | ⟨-, -, e⟩ | ⟨-, -, e⟩ | ⟨-, -, e⟩ | ⟨-, -, e⟩ | ⟨-, -, e⟩ <;>
    simp [e]

/-- An operation reports no bytes and leaves the output buffer, or reports exactly the bytes it writes. -/
theorem execWith_output {i : Instr} (h : execWith p i s = .next t) :
    ((∀ n bytes, t.answer ≠ some (.written n bytes)) ∧ ∀ a, t.outRead a = s.outRead a) ∨
      ∃ bytes, t.answer = some (.written bytes.length bytes) ∧ ∀ a, t.outRead a = (s.outWrite bytes).outRead a := by
  rcases execWith_cases h with ⟨-, rfl⟩ | ⟨b, -, rfl⟩ | ⟨-, -, ⟨r, hr, rfl⟩ | ⟨bytes, rfl⟩⟩
  · exact .inl ⟨by simp [resetStep], fun _ => rfl⟩
  · obtain ⟨hout, hres⟩ := pushByteStep_output p b s
    exact .inl ⟨by simpa using hres, fun a => by rw [State.outRead, State.reply_outBuffer, hout, State.outRead]⟩
  · exact .inl ⟨by simpa using hr, fun _ => rfl⟩
  · exact .inr ⟨bytes, rfl, fun _ => rfl⟩

end Output

/-! ## The error kinds that operations return (60_exceptions.md R194 to R197) -/

/-- A result other than the three error kinds that no operation returns without REGISTRY_EXTRA: `InvalidPayload` is a
codec's own content check (R194), the other two are the adapters' (R196). -/
def NoRareError : Result → Prop
  | .error .invalidPayload | .error .unexpectedEof | .error (.io _) => False
  | _ => True

section ErrorKinds

variable {p : Params} {s t : State}

theorem noRareError_pushByteStep (p : Params) (b : Byte) (s : State) : NoRareError (pushByteStep p b s).2 := by
  rcases pushByteStep_cases p b s with
    ⟨-, -, e⟩ | ⟨-, -, e⟩ | ⟨-, -, -, e⟩ | ⟨-, -, e⟩ | ⟨-, -, e⟩ | ⟨-, -, e⟩ | ⟨-, -, e⟩ | ⟨-, -, e⟩ <;>
    rw [e] <;> trivial

/-- A codec without a content check fails by the length rule only (R121). -/
theorem noRareError_decodeChecked (p : Params) (m : Nat) (fixed : Bool) (content : List Byte → Record)
    (payload : List Byte) : NoRareError (decodeResult (decodeChecked p m fixed (fun b => .ok (content b)) payload)) := by
  rw [decodeChecked_eq]
  split <;> trivial

/-- Without REGISTRY_EXTRA the registry holds the three codecs, none of which checks content (R123, R131). -/
theorem noRareError_dispatchPayload (h : p.registryExtra = []) (tag : Byte) (payload : List Byte) :
    NoRareError (dispatchPayload p tag payload) := by
  unfold dispatchPayload
  split
  next c hfind =>
    have hc : c ∈ [linkstatCodec p, rcCodec p, baroCodec p] := by
      simpa [registry, h] using List.mem_of_find?_eq_some hfind
    simp only [List.mem_cons, List.not_mem_nil, or_false] at hc
    rcases hc with rfl | rfl | rfl
    · exact noRareError_decodeChecked p linkstatPayload true (fun b => .linkStatistics (linkFieldsOf b)) payload
    · exact noRareError_decodeChecked p rcPayload true (fun b => .rcChannels (rcUnpack b)) payload
    · exact noRareError_decodeChecked p p.baroPayload true baroUnpack payload
  next => trivial

theorem noRareError_dispatchStep (h : p.registryExtra = []) (s : State) : NoRareError (dispatchStep p s).2 := by
  unfold dispatchStep
  split
  · exact noRareError_dispatchPayload h _ _
  · trivial

theorem noRareError_deliver (cap : Nat) (bytes : List Byte) (s : State) : NoRareError (deliver cap bytes s).2 := by
  rcases deliver_cases cap bytes s with ⟨-, e⟩ | ⟨-, e⟩ <;> rw [e] <;> trivial

/-- A frame too large for the scratch or for the host fails with `BufferOverflow` (R171). -/
theorem noRareError_encodeFrameBytes (p : Params) (destination tag : Byte) (payload : List Byte) (cap : Nat)
    (s : State) : NoRareError (encodeFrameBytes p destination tag payload cap s).2 := by
  by_cases hfit : p.encScratch < payload.length
  · rw [encodeFrameBytes, encodeInto, if_pos hfit]
    trivial
  · rw [encodeFrameBytes, encodeInto, if_neg hfit]
    exact noRareError_deliver _ _ s

theorem noRareError_of_encodeFrameWith {destination : Byte} {record : Record} {cap : Nat}
    (h : encodeFrameWith p destination record cap s = .next t) : ∃ r, t.answer = some r ∧ NoRareError r := by
  unfold encodeFrameWith at h
  split at h
  · split at h
    · cases h
    · rw [respond_eq_next h]
      exact ⟨_, rfl, noRareError_encodeFrameBytes _ _ _ _ _ _⟩
  · cases h

theorem noRareError_of_execWith (hextra : p.registryExtra = []) {i : Instr} (h : execWith p i s = .next t) :
    ∃ r, t.answer = some r ∧ NoRareError r := by
  cases i with
  | encodeFrame => exact noRareError_of_encodeFrameWith h
  | pushByte b =>
    rw [respond_eq_next h]
    exact ⟨_, rfl, noRareError_pushByteStep p b s⟩
  | dispatch =>
    rw [respond_eq_next h]
    exact ⟨_, rfl, noRareError_dispatchStep hextra s⟩
  | rcEncode | baroEncode | linkstatEncode =>
    rw [respond_eq_next h]
    exact ⟨_, rfl, noRareError_deliver _ _ s⟩
  | rcDecode payload | baroDecode payload | linkstatDecode payload =>
    rw [respond_eq_next h]
    exact ⟨_, rfl, noRareError_decodeChecked p _ _ _ payload⟩
  | frameLinkstat | frameRcChannels | frameBaroAlt | frameNotImplemented =>
    rw [respond_eq_next h]
    exact ⟨_, rfl, noRareError_dispatchPayload hextra _ _⟩
  | reset | crc8Digest | altUnpack | altPack | vsUnpack | vsPack | reserved0xF =>
    rw [respond_eq_next h]
    exact ⟨_, rfl, trivial⟩

end ErrorKinds

end Sys2Proof.Machine

/-! ## The obligations on the codecs' contract, the dispatcher and link statistics -/

namespace Sys2Proof.Proofs

open Machine

/-- Settles O20: an operation that reports bytes is an output write and a reply; every other leaves the buffer. -/
theorem outputBytesAreExactlyTheReportedOnes : Obligations.OutputBytesAreExactlyTheReportedOnes := by
  intro i s t h
  rw [exec_eq_execWith] at h
  rcases execWith_output h with ⟨hnone, hout⟩ | ⟨written, hsome, hout⟩
  · exact ⟨fun n bytes hw => absurd hw (hnone n bytes), fun _ => hout⟩
  · refine ⟨fun n bytes hw => ?_, fun hnone => absurd hsome (hnone _ _)⟩
    cases hsome.symm.trans hw
    exact ⟨rfl, fun a => by rw [hout, outRead_outWrite]⟩

/-- Settles O22: the default registry has no content check, and no operation is an adapter. -/
theorem someErrorKindsAreNeverReturned : Obligations.SomeErrorKindsAreNeverReturned := by
  intro i s t h
  rw [exec_eq_execWith] at h
  obtain ⟨r, hr, hrare⟩ := noRareError_of_execWith rfl h
  rw [hr]
  refine ⟨?_, ?_, fun k => ?_⟩ <;> rintro ⟨⟩ <;> exact hrare

/-- Settles O27: distinct tags find their own codec, whose length rule and content check give the clauses. -/
theorem dispatchSelectsTheCodecByTag : Obligations.DispatchSelectsTheCodecByTag := by
  rintro p f tag payload ⟨-, -, htags, -⟩ - htag rfl
  rw [dispatchFrame_eq htag]
  refine ⟨?_, ?_, ?_, ?_, fun h => dispatchPayload_of_not_mem h _⟩
  · rintro rfl s
    rw [dispatchPayload_tagLinkstat]
    exact execWith_linkstatDecode p _ s
  · rintro rfl s
    rw [dispatchPayload_tagRc htags]
    exact execWith_rcDecode p _ s
  · rintro rfl s
    rw [dispatchPayload_tagBaro htags]
    exact execWith_baroDecode p _ s
  · rintro c hc rfl
    rw [dispatchPayload_extra htags hc]
    refine ⟨fun hbad => ?_, fun hmin hexact => ⟨fun fields hdec => ?_, fun hnone => ?_⟩⟩
    · rw [extraDecodeRecord, decodeChecked_rejects hbad]
      rfl
    · rw [extraDecodeRecord_of_decode hmin hexact hdec]
      rfl
    · rw [extraDecodeRecord_of_no_decode hmin hexact hnone]
      rfl

/-- Settles O28: what `buf` holds up to the cursor is the received frame, and DISPATCH writes only its result. -/
theorem dispatchDecodesTheHeldFrame : Obligations.DispatchDecodesTheHeldFrame := by
  refine ⟨fun s => ⟨fun hno => ?_, fun hvalid hcur => ?_⟩, fun s t h => ?_⟩
  · rw [exec_eq_execWith, execWith_dispatch, dispatchStep, if_neg (by simp [hno])]
    rfl
  · rw [exec_eq_execWith, execWith_dispatch,
      dispatchStep_of_received (received_bufSlice s) hvalid (by rw [length_bufSlice]; omega)]
    rfl
  · rw [exec_eq_execWith, execWith_dispatch] at h
    cases h
    rw [exec_eq_execWith, execWith_dispatch, dispatchStep_reply]
    rfl

/-- Settles O29: the length rule of R121 at each codec's size. -/
theorem decodeLengthRule : Obligations.DecodeLengthRule := by
  intro p payload s
  refine ⟨fun h => ?_, fun hmin hexact => ?_, fun h => ?_, fun hmin hexact => ?_, fun h => ?_,
    fun hthree hmin hexact => ?_⟩
  · rw [execWith_linkstatDecode, linkstatDecodeRecord_rejects h]
    rfl
  · rw [execWith_linkstatDecode, linkstatDecodeRecord_accepts hmin hexact]
    rfl
  · rw [execWith_rcDecode, rcDecodeRecord_rejects h]
    rfl
  · rw [execWith_rcDecode, rcDecodeRecord_accepts hmin hexact]
    rfl
  · rw [execWith_baroDecode, baroDecodeRecord_rejects h]
    rfl
  · rw [execWith_baroDecode, baroDecodeRecord_accepts hthree hmin hexact]
    rfl

/-- Settles O30: the length rule, and the fields are the bytes they are read from. -/
theorem linkstatDecodeOperation : Obligations.LinkstatDecodeOperation := by
  refine fun payload s => ⟨fun hlt => ?_, fun hmin => ⟨_, exec_linkstatDecode hmin s, ?_⟩⟩
  · rw [exec_eq_execWith, execWith_linkstatDecode, linkstatDecodeRecord_rejects (.inl hlt)]
    rfl
  · exact toList_linkFieldsOf (List.length_take_of_le hmin)

/-- Settles O31, by the capacity rule of R129 at ten bytes. -/
theorem linkstatEncodeOperation : Obligations.LinkstatEncodeOperation := by
  refine fun f cap s => ⟨⟨_, rfl⟩, fun hlt => ?_, fun hcap => exec_linkstatEncode f hcap s⟩
  rw [exec_eq_execWith, execWith, deliver_overflows (by rwa [Vector.length_toList])]
  rfl

/-- Settles O32: the fields of ten bytes are those bytes, and the ten fields' bytes are those fields. -/
theorem linkstatRoundTrip : Obligations.LinkstatRoundTrip := by
  refine ⟨fun f cap s hcap => ?_, fun payload cap s hlen hcap => ?_⟩
  · refine ⟨_, _, _, exec_linkstatEncode f hcap s, rfl, exec_linkstatDecode Vector.length_toList.ge _, ?_⟩
    rw [State.reply_answer, linkFieldsOf_take, linkFieldsOf_toList]
  · refine ⟨_, _, _, exec_linkstatDecode hlen.ge s, rfl, exec_linkstatEncode _ hcap _, ?_⟩
    rw [State.reply_answer, linkFieldsOf_take, toList_linkFieldsOf hlen]

end Sys2Proof.Proofs

/-! ## RC_DECODE and RC_ENCODE (43_rc_channels.md R141 to R146) -/

namespace Sys2Proof.Machine

/-- Stream bit `k` of the encoded payload is bit `k mod 11` of channel `k div 11` (R141). -/
theorem getLsbD_rcPack_stream (ch : Channels) {k : Nat} (hk : k < 176) :
    ((rcPack ch).getD (k / 8) 0).getLsbD (k % 8) = (ch[k / 11]'(by omega)).getLsbD (k % 11) := by
  rw [getLsbD_rcPack ch (by omega) (by omega)]
  simp only [Nat.div_add_mod]

/-- A payload of exactly the codec's size is the encoding of what it decodes to (R146): the two tables agree on each
bit of the stream. -/
theorem rcPack_rcUnpack {payload : List Byte} (h : payload.length = 22) : rcPack (rcUnpack payload) = payload := by
  refine List.ext_getElem h.symm fun q hq hq' => ?_
  rw [← List.getD_eq_getElem _ 0 hq, ← List.getD_eq_getElem _ 0 hq']
  have hq22 : q < 22 := hq
  refine BitVec.eq_of_getLsbD_eq fun k hk => ?_
  rw [getLsbD_rcPack _ hq22 hk, getLsbD_rcUnpack _ (by omega) (by omega), Nat.div_add_mod]
  congr 2 <;> omega

/-- RC_DECODE of the default build takes any payload of 22 bytes or more (R142). -/
theorem exec_rcDecode {payload : List Byte} (h : 22 ≤ payload.length) (s : State) :
    exec (.rcDecode payload) s = .next (s.reply (.packet (.record (.rcChannels (rcUnpack payload))))) := by
  rw [exec_eq_execWith, execWith_rcDecode, rcDecodeRecord_accepts h (by simp [params]), rcUnpack_take]
  rfl

/-- Stated for any list of bytes, so that no table of bytes is computed to see it. -/
theorem State.reply_outWrite (s : State) (bytes : List Byte) (r : Result) :
    (s.outWrite bytes).reply r = { s with answer := some r, outBuffer := s.outBuffer.storeAll 0 bytes } := rfl

/-- RC_ENCODE with room for the payload (R144). -/
theorem exec_rcEncode (ch : Channels) {cap : Nat} (h : 22 ≤ cap) (s : State) :
    exec (.rcEncode ch cap) s = .next
      { s with answer := some (.written 22 (rcPack ch)), outBuffer := s.outBuffer.storeAll 0 (rcPack ch) } := by
  rw [exec_eq_execWith, execWith, deliver_fits ((length_rcPack ch).trans_le h), length_rcPack, respond_next,
    State.reply_outWrite]

end Sys2Proof.Machine

/-! ## The obligations on the channel codec -/

namespace Sys2Proof.Proofs

open Machine

/-- Settles O33: the length rule, and each row of R142's table reads its channel's eleven bits of the stream. -/
theorem rcDecodeReadsTheBitStream : Obligations.RcDecodeReadsTheBitStream := by
  refine fun payload s => ⟨fun hlt => ?_, fun hmin =>
    ⟨_, exec_rcDecode hmin s, fun _ _ hj hi => getLsbD_rcUnpack payload hi hj⟩⟩
  rw [exec_eq_execWith, execWith_rcDecode, rcDecodeRecord_rejects (.inl hlt)]
  rfl

/-- Settles O34: the capacity rule of R129 at 22 bytes, and each row of R144's table writes its byte of the stream. -/
theorem rcEncodeWritesTheBitStream : Obligations.RcEncodeWritesTheBitStream := by
  refine fun ch cap s => ⟨fun hlt => ?_, fun hcap =>
    ⟨rcPack ch, length_rcPack ch, exec_rcEncode ch hcap s, fun _ hk => getLsbD_rcPack_stream ch hk⟩⟩
  rw [exec_eq_execWith, execWith, deliver_overflows (hlt.trans_eq (length_rcPack ch).symm)]
  rfl

/-- Settles O35: each of the two tables reads back the bits that the other writes. -/
theorem rcRoundTrip : Obligations.RcRoundTrip := by
  refine ⟨fun ch cap s hcap => ?_, fun payload cap s hlen hcap => ?_⟩
  · refine ⟨_, _, _, exec_rcEncode ch hcap s, rfl, length_rcPack ch, exec_rcDecode (length_rcPack ch).ge _, ?_⟩
    rw [State.reply_answer, rcUnpack_rcPack]
  · refine ⟨_, _, _, exec_rcDecode hlen.ge s, rfl, exec_rcEncode _ hcap _, ?_⟩
    rw [rcPack_rcUnpack hlen]

end Sys2Proof.Proofs

/-! ## BARO_DECODE, BARO_ENCODE, ALT_UNPACK and ALT_PACK (44_baro_altitude.md R152 to R157) -/

namespace Sys2Proof.Machine

/-! ### The payload of an altitude record -/

/-- The altitude field is the first two bytes, most significant first, and the vertical speed is the third (R152). -/
theorem baroUnpack_eq (b : List Byte) :
    baroUnpack b = .baroAltitude (b.getD 0 0 ++ b.getD 1 0 : BitVec (8 + 8)) (b.getD 2 0) := by
  have halt : BitVec.ofNat 16 ((b.getD 0 0).toNat <<< 8 ||| (b.getD 1 0).toNat) =
      (b.getD 0 0 ++ b.getD 1 0 : BitVec (8 + 8)) := by
    rw [← BitVec.toNat_append, BitVec.ofNat_toNat, BitVec.setWidth_eq]
  rw [baroUnpack, halt, ofInt_sext8]

theorem toNat_append_bytes (hi lo : Byte) : (hi ++ lo : BitVec (8 + 8)).toNat = 256 * hi.toNat + lo.toNat := by
  rw [BitVec.toNat_append, ← Nat.shiftLeft_add_eq_or_of_lt lo.isLt, Nat.shiftLeft_eq]
  omega

/-- The two bytes of the altitude field, by value, and the vertical-speed byte as it is (R153). -/
theorem baroFields_eq (alt : BitVec 16) (vs : BitVec 8) :
    baroFields alt vs = [BitVec.ofNat 8 (alt.toNat / 256), BitVec.ofNat 8 (alt.toNat % 256), vs] := by
  have halt := alt.isLt
  have hhi : alt.extractLsb' 8 8 = BitVec.ofNat 8 (alt.toNat / 256) := BitVec.eq_of_toNat_eq (by
    rw [BitVec.extractLsb'_toNat, BitVec.toNat_ofNat, Nat.shiftRight_eq_div_pow])
  have hlo : alt.extractLsb' 0 8 = BitVec.ofNat 8 (alt.toNat % 256) := BitVec.eq_of_toNat_eq (by
    rw [BitVec.extractLsb'_toNat, BitVec.toNat_ofNat, Nat.shiftRight_zero, Nat.mod_mod])
  rw [baroFields, hhi, hlo, toU8_toInt]

theorem baroFields_append (hi lo : Byte) (vs : BitVec 8) :
    baroFields (hi ++ lo : BitVec (8 + 8)) vs = [hi, lo, vs] := by
  rw [baroFields, toU8_toInt]
  exact congrArg₂ (fun a b => [a, b, vs]) BitVec.extractLsb'_append_eq_left BitVec.extractLsb'_append_eq_right

/-! ### The record codec's operations -/

/-- BARO_DECODE of the default build takes any payload of three bytes or more (R152). -/
theorem exec_baroDecode {payload : List Byte} (h : 3 ≤ payload.length) (s : State) :
    exec (.baroDecode payload) s = .next (s.reply (.packet (.record (baroUnpack payload)))) := by
  rw [exec_eq_execWith, execWith_baroDecode, baroDecodeRecord_accepts (p := params) le_rfl h (by simp [params]),
    baroUnpack_take (le_refl params.baroPayload)]
  rfl

section BaroEncode

variable {p : Params} {cap : Nat}

/-- BARO_ENCODE with room for the payload (R153). -/
theorem execWith_baroEncode_fits (hthree : 3 ≤ p.baroPayload) (hcap : p.baroPayload ≤ cap) (alt : BitVec 16)
    (vs : BitVec 8) (s : State) :
    execWith p (.baroEncode alt vs cap) s =
      .next ((s.outWrite (baroPack p alt vs)).reply (.written p.baroPayload (baroPack p alt vs))) := by
  have hlen : (baroPack p alt vs).length = p.baroPayload := by rw [length_baroPack, max_eq_right hthree]
  rw [execWith, baroEncodeWith, deliver_fits (by omega), hlen, respond_next]

/-- BARO_ENCODE without room changes nothing (R153). -/
theorem execWith_baroEncode_overflows (hcap : cap < p.baroPayload) (alt : BitVec 16) (vs : BitVec 8) (s : State) :
    execWith p (.baroEncode alt vs cap) s = .next (s.reply (.error .bufferOverflow)) := by
  rw [execWith, baroEncodeWith, deliver_overflows (by rw [length_baroPack]; omega), respond_next]

end BaroEncode

/-- BARO_ENCODE of the default build writes the three field bytes (R153). -/
theorem exec_baroEncode (alt : BitVec 16) (vs : BitVec 8) {cap : Nat} (h : 3 ≤ cap) (s : State) :
    exec (.baroEncode alt vs cap) s =
      .next ((s.outWrite (baroFields alt vs)).reply (.written 3 (baroFields alt vs))) := by
  rw [exec_eq_execWith, execWith_baroEncode_fits le_rfl h, baroPack_of_three rfl]
  rfl

/-! ### ALT_UNPACK's value, by the mode bit (R154) -/

section Altitude

variable {p : Params}

theorem altUnpackDm_decimetres {f : BitVec 16} (h : f.toNat < 0x8000) :
    altUnpackDm p f = f.toNat - p.altOffsetDm := by
  have hmsb : f.msb = false := by rw [BitVec.msb_eq_decide]; exact decide_eq_false (by omega)
  simp [altUnpackDm, hmsb]

theorem altUnpackDm_metres {f : BitVec 16} (h : 0x8000 ≤ f.toNat) :
    altUnpackDm p f = 10 * (f.toNat - 0x8000) := by
  have hf := f.isLt
  have hmsb : f.msb = true := by rw [BitVec.msb_eq_decide]; exact decide_eq_true h
  rw [altUnpackDm, if_pos hmsb, BitVec.extractLsb'_toNat, Nat.shiftRight_zero]
  omega

/-- ALT_UNPACK's value fits the 32 bits of its result. -/
theorem toInt_ofInt_altUnpackDm (hoff : p.altOffsetDm ≤ 2 ^ 31) (f : BitVec 16) :
    (BitVec.ofInt 32 (altUnpackDm p f)).toInt = altUnpackDm p f := by
  have hf := f.isLt
  have hval : -2 ^ 31 ≤ altUnpackDm p f ∧ altUnpackDm p f < 2 ^ 31 := by
    rcases lt_or_ge f.toNat 0x8000 with h | h
    · rw [altUnpackDm_decimetres h]
      omega
    · rw [altUnpackDm_metres h]
      omega
  exact BitVec.toInt_ofInt_eq_self (by decide) hval.1 hval.2

/-! ### ALT_PACK's field, by the range of the altitude (R155) -/

theorem altPackField_clamped {d : Int} (h : d < -p.altOffsetDm) : altPackField p d = 0 := if_pos h

theorem toNat_altPackField_decimetres {d : Int} (hlo : -p.altOffsetDm ≤ d) (hhi : d < 0x8000 - p.altOffsetDm) :
    ((altPackField p d).toNat : Int) = d + p.altOffsetDm := by
  rw [altPackField, if_neg (by omega), if_pos (by rwa [altThresholdDm]), BitVec.toNat_ofInt]
  omega

/-- The mode bit and 15 bits of metres do not overlap. -/
theorem toNat_metreField {m : Nat} (h : m < 0x8000) : (0x8000#16 ||| BitVec.ofInt 16 m).toNat = 0x8000 + m := by
  rw [BitVec.ofInt_natCast, BitVec.toNat_or, BitVec.toNat_ofNat m, Nat.mod_eq_of_lt (by omega)]
  exact (Nat.two_pow_add_eq_or_of_lt (i := 15) h 1).symm

theorem toNat_altPackField_metres (hoff : p.altOffsetDm ≤ 0x7FFF) (hmax : p.altMaxM ≤ 0x7FFF) {d : Int}
    (h : 0x8000 - p.altOffsetDm ≤ d) :
    ((altPackField p d).toNat : Int) = 0x8000 + min ((d + 5) / 10) p.altMaxM := by
  have hmin : (if (d + 5) / 10 > p.altMaxM then (p.altMaxM : Int) else (d + 5) / 10) =
      min ((d + 5) / 10) p.altMaxM := by
    split <;> omega
  obtain ⟨m, hm⟩ : ∃ m : Nat, min ((d + 5) / 10) (p.altMaxM : Int) = m := Int.eq_ofNat_of_zero_le (by omega)
  rw [altPackField, if_neg (by omega), if_neg (by rw [altThresholdDm]; omega)]
  simp only [hmin, hm]
  rw [toNat_metreField (by omega)]
  omega

end Altitude

/-! ### The default build, whose offset is 10000 and whose largest metre count is 0x7FFE (R157) -/

theorem altUnpackDm_params_decimetres {f : BitVec 16} (h : f.toNat < 0x8000) :
    altUnpackDm params f = f.toNat - 10000 :=
  altUnpackDm_decimetres h

theorem toNat_altPackField_params_decimetres {d : Int} (hlo : -10000 ≤ d) (hhi : d < 22768) :
    ((altPackField params d).toNat : Int) = d + 10000 :=
  toNat_altPackField_decimetres (p := params) hlo hhi

theorem toNat_altPackField_params_metres {d : Int} (h : 22768 ≤ d) :
    ((altPackField params d).toNat : Int) = 0x8000 + min ((d + 5) / 10) 0x7FFE :=
  toNat_altPackField_metres (p := params) (by decide) (by decide) h

/-- What ALT_UNPACK gives of ALT_PACK's field, in the three ranges of R155. -/
theorem altUnpackDm_altPackField (d : Int) :
    altUnpackDm params (altPackField params d) =
      if d < -10000 then -10000 else if d < 22768 then d else 10 * min ((d + 5) / 10) 0x7FFE := by
  split_ifs with hclamp hdm
  · rw [altPackField_clamped (p := params) hclamp]
    rfl
  · have hf := toNat_altPackField_params_decimetres (not_lt.1 hclamp) hdm
    rw [altUnpackDm_params_decimetres (by omega), hf, add_sub_cancel_right]
  · have hf := toNat_altPackField_params_metres (not_lt.1 hdm)
    rw [altUnpackDm_metres (by omega)]
    omega

/-- The fields that ALT_PACK gives back are those it can produce (R157 (d)). -/
theorem altPackField_altUnpackDm_iff (f : BitVec 16) :
    altPackField params (altUnpackDm params f) = f ↔
      f.toNat ≤ 0x7FFF ∨ (0x88E5 ≤ f.toNat ∧ f.toNat ≤ 0xFFFE) := by
  have hlt := f.isLt
  rw [← BitVec.toNat_inj]
  by_cases hmode : f.toNat < 0x8000
  · have hd := altUnpackDm_params_decimetres hmode
    have hf := toNat_altPackField_params_decimetres (d := altUnpackDm params f) (by omega) (by omega)
    omega
  · have hd := altUnpackDm_metres (p := params) (not_lt.1 hmode)
    by_cases hsmall : altUnpackDm params f < 22768
    · have hf := toNat_altPackField_params_decimetres (by omega) hsmall
      omega
    · have hf := toNat_altPackField_params_metres (not_lt.1 hsmall)
      omega

end Sys2Proof.Machine

/-! ## The obligations on the altitude record and the altitude conversions -/

namespace Sys2Proof.Proofs

open Machine

/-- Settles O38: each of the two layouts reads back the fields that the other writes. -/
theorem baroRoundTrip : Obligations.BaroRoundTrip := by
  refine ⟨fun alt vs cap s hcap => ?_, fun payload cap s hlen hcap => ?_⟩
  · refine ⟨_, _, _, exec_baroEncode alt vs hcap s, rfl, exec_baroDecode le_rfl _, ?_⟩
    rw [State.reply_answer, ← baroPack_of_three (p := params) rfl, baroUnpack_baroPack]
  · obtain ⟨hi, lo, vs, rfl⟩ := List.length_eq_three.1 hlen
    refine ⟨_, _, _, _, exec_baroDecode hlen.ge s, congrArg _ (congrArg _ (congrArg _ (baroUnpack_eq _))),
      exec_baroEncode _ _ hcap _, ?_⟩
    exact congrArg (fun bytes => some (Result.written 3 bytes)) (baroFields_append hi lo vs)

/-- Settles O41, from what ALT_PACK then ALT_UNPACK gives in each of the three ranges. -/
theorem altitudeRoundTripProperties : Obligations.AltitudeRoundTripProperties := by
  refine ⟨fun d hlo hhi => ?_, fun d hlo hhi => ?_, fun d h => ?_, fun d h => ?_, altPackField_altUnpackDm_iff,
    fun d e hde => ?_, by decide, by decide, by decide⟩
  · rw [altUnpackDm_altPackField]
    omega
  · rw [altUnpackDm_altPackField, abs_le]
    omega
  · rw [altUnpackDm_altPackField, if_pos h]
  · rw [altUnpackDm_altPackField]
    omega
  · rw [altUnpackDm_altPackField, altUnpackDm_altPackField]
    omega

/-- Settles O36: the length rule, and the fields by value. -/
theorem baroDecodeOperation : Obligations.BaroDecodeOperation := by
  refine fun payload s => ⟨fun hlt => ?_, fun hmin => ⟨payload.getD 0 0 ++ payload.getD 1 0, payload.getD 2 0, ?_,
    toNat_append_bytes _ _, (sext8_eq_toInt _).symm⟩⟩
  · rw [exec_eq_execWith, execWith_baroDecode, baroDecodeRecord_rejects (.inl hlt)]
    rfl
  · rw [exec_baroDecode hmin, baroUnpack_eq]
    rfl

/-- Settles O37: the capacity rule of R129 at the payload's size, and the field bytes by value. -/
theorem baroEncodeOperation : Obligations.BaroEncodeOperation := by
  have hbyte (n : Nat) (h : n < 256) : (BitVec.ofNat 8 n).toNat = n := Nat.mod_eq_of_lt h
  refine ⟨fun alt vs cap s => ⟨⟨_, rfl⟩, fun hcap => ?_, fun hcap => ?_⟩,
    fun p alt vs cap s hthree => ⟨fun hcap => execWith_baroEncode_overflows hcap alt vs s, fun hcap => ?_⟩⟩
  · rw [exec_eq_execWith, execWith_baroEncode_overflows hcap]
    rfl
  · refine ⟨_, _, hbyte _ (by omega), hbyte _ (by omega), ?_⟩
    rw [exec_baroEncode alt vs hcap, baroFields_eq]
    rfl
  · refine ⟨_, _, (List.range' 3 (p.baroPayload - 3)).map Config.freeBaroByte, hbyte _ (by omega),
      hbyte _ (by omega), by simp, ?_⟩
    rw [execWith_baroEncode_fits hthree hcap, baroPack, baroFields_eq]
    rfl

/-- Settles O39, by the two modes; both values fit 32 bits. -/
theorem altUnpackOperation : Obligations.AltUnpackOperation := by
  refine ⟨fun p packed s hoff => ⟨_, rfl, fun h => ?_, fun h => ?_⟩, fun packed s => ⟨_, rfl, fun h => ?_, fun h => ?_⟩⟩
  · rw [toInt_ofInt_altUnpackDm hoff, altUnpackDm_decimetres h]
  · rw [toInt_ofInt_altUnpackDm hoff, altUnpackDm_metres h]
  · rw [toInt_ofInt_altUnpackDm (by decide), altUnpackDm_params_decimetres h]
  · rw [toInt_ofInt_altUnpackDm (by decide), altUnpackDm_metres h]

/-- Settles O40, by the three ranges of the altitude. -/
theorem altPackOperation : Obligations.AltPackOperation := by
  refine ⟨fun p d s hoff hmax => ⟨_, rfl, fun h => ?_, toNat_altPackField_decimetres,
    toNat_altPackField_metres hoff hmax⟩, fun d s => ⟨_, rfl, fun h => ?_, toNat_altPackField_params_decimetres,
    toNat_altPackField_params_metres⟩⟩
  · rw [altPackField_clamped h]
    rfl
  · rw [altPackField_clamped (p := params) h]
    rfl

end Sys2Proof.Proofs

/-! ## VS_PACK and VS_UNPACK (44_baro_altitude.md R158 to R162) -/

namespace Sys2Proof.Machine

/-! ### The index that the threshold table gives (R159) -/

/-- In a rising list, entry `q` is at most `m` exactly where more than `q` entries are. -/
theorem getD_le_iff_lt_countP {l : List Nat} (hl : l.Pairwise (· < ·)) (m : Nat) {q : Nat} (hq : q < l.length) :
    l.getD q 0 ≤ m ↔ q < l.countP (fun x => x ≤ m) := by
  induction l generalizing q with
  | nil => exact absurd hq (Nat.not_lt_zero q)
  | cons x l ih =>
    obtain ⟨hx, hl⟩ := List.pairwise_cons.1 hl
    by_cases hxm : x ≤ m
    · rw [List.countP_cons_of_pos (p := fun y => decide (y ≤ m)) (decide_eq_true hxm)]
      cases q with
      | zero => simpa using hxm
      | succ q => simpa using ih hl (Nat.lt_of_succ_lt_succ hq)
    · have hfirst : ∀ y ∈ x :: l, x ≤ y := List.forall_mem_cons.2 ⟨le_rfl, fun y hy => (hx y hy).le⟩
      have hnone : (x :: l).countP (fun y => y ≤ m) = 0 := List.countP_eq_zero.2 fun y hy => by
        have hxy := hfirst y hy
        simpa using (by omega : m < y)
      have hentry : x ≤ (x :: l).getD q 0 := by
        rw [List.getD_eq_getElem _ _ hq]
        exact hfirst _ (List.getElem_mem hq)
      omega

theorem length_vsPackThresholds : vsPackThresholds.length = 129 := by decide +kernel

theorem vsPackThresholds_rising : vsPackThresholds.Pairwise (· < ·) :=
  List.isChain_iff_pairwise.1 (by decide +kernel)

/-- The table lists the smallest magnitude of each index (R159). -/
theorem le_vsPackIndex_iff {q : Nat} (hq : q ≤ 128) (m : Nat) :
    q ≤ vsPackIndex sourceVsTables m ↔ vsPackThresholds.getD q 0 ≤ m := by
  have hlt {i : Nat} (hi : i ≤ 128) := getD_le_iff_lt_countP vsPackThresholds_rising m
    (length_vsPackThresholds.symm ▸ Nat.lt_succ_of_le hi : i < vsPackThresholds.length)
  have hpos : 0 < vsPackThresholds.countP (fun x => x ≤ m) := (hlt (Nat.zero_le _)).1 (Nat.zero_le m)
  rw [hlt hq, vsPackIndex]
  show q ≤ vsPackThresholds.countP (fun x => x ≤ m) - 1 ↔ _
  omega

theorem vsPackIndex_le (m : Nat) : vsPackIndex sourceVsTables m ≤ 128 :=
  Nat.sub_le_of_le_add (List.countP_le_length.trans_eq length_vsPackThresholds)

theorem vsPackIndex_zero : vsPackIndex sourceVsTables 0 = 0 := by decide +kernel

theorem vsPackIndex_mono {m n : Nat} (h : m ≤ n) : vsPackIndex sourceVsTables m ≤ vsPackIndex sourceVsTables n := by
  have hle := vsPackIndex_le m
  exact (le_vsPackIndex_iff hle n).2 (((le_vsPackIndex_iff hle m).1 le_rfl).trans h)

/-- No index saturates up to the last magnitude below the threshold of 128 (R158). -/
theorem vsPackIndex_le_of_le {m : Nat} (h : m ≤ 2652) : vsPackIndex sourceVsTables m ≤ 127 := by
  have h128 := (le_vsPackIndex_iff (q := 128) le_rfl m).1
  have hentry : vsPackThresholds.getD 128 0 = 2653 := rfl
  omega

/-! ### VS_PACK's value (R158) -/

/-- VS_PACK's value is the signed index, saturated to the field. -/
theorem vsPackValue_eq (t : VsTables) (v : Int) :
    vsPackValue t v = max (-128) (min 127 (v.sign * vsPackIndex t v.natAbs)) := by
  rw [vsPackValue]
  split_ifs <;> omega

theorem vsPackValue_mem (t : VsTables) (v : Int) : -128 ≤ vsPackValue t v ∧ vsPackValue t v < 128 := by
  rw [vsPackValue_eq]
  omega

/-- R159's reading of a speed that is not negative. -/
theorem vsPackValue_natCast (m : Nat) : vsPackValue sourceVsTables m = min 127 (vsPackIndex sourceVsTables m) := by
  rw [vsPackValue_eq, Int.natAbs_natCast]
  rcases Nat.eq_zero_or_pos m with rfl | hm
  · rw [vsPackIndex_zero]; rfl
  · rw [Int.sign_eq_one_of_pos (by omega)]
    omega

/-- R159's reading of a speed that is not positive. -/
theorem vsPackValue_neg_natCast (m : Nat) :
    vsPackValue sourceVsTables (-m) = max (-128) (-(vsPackIndex sourceVsTables m : Int)) := by
  rw [vsPackValue_eq, Int.natAbs_neg, Int.natAbs_natCast]
  rcases Nat.eq_zero_or_pos m with rfl | hm
  · rw [vsPackIndex_zero]; rfl
  · rw [Int.sign_eq_neg_one_of_neg (by omega)]
    omega

/-! ### VS_UNPACK's value (R160, R161) -/

/-- The magnitude of a vertical-speed field is an index of the tables. -/
theorem natAbs_field_le (q : BitVec 8) : q.toInt.natAbs ≤ 128 := by
  have hlo := q.le_toInt
  have hhi := q.toInt_lt
  omega

theorem vsUnpackTable_le (r : Rounding) : ∀ n ≤ 128, (vsUnpackTable sourceVsTables r).getD n 0 ≤ 2688 := by
  cases r <;> decide +kernel

/-- VS_UNPACK's value fits the 16 bits of its result. -/
theorem toInt_ofInt_vsUnpackValue (r : Rounding) (q : BitVec 8) :
    (BitVec.ofInt 16 (vsUnpackValue sourceVsTables r q.toInt)).toInt = vsUnpackValue sourceVsTables r q.toInt := by
  have hmag := vsUnpackTable_le r _ (natAbs_field_le q)
  have hval : -2688 ≤ vsUnpackValue sourceVsTables r q.toInt ∧ vsUnpackValue sourceVsTables r q.toInt ≤ 2688 := by
    rw [vsUnpackValue]
    rcases Int.sign_trichotomy q.toInt with h | h | h <;> rw [h] <;> omega
  exact BitVec.toInt_ofInt_eq_self (by decide) (by omega) (by omega)

/-- Each unpacked magnitude lies between the threshold of its own index and the next (R162). -/
theorem vsUnpackTable_between (r : Rounding) : ∀ n ≤ 128,
    vsPackThresholds.getD n 0 ≤ (vsUnpackTable sourceVsTables r).getD n 0 ∧
      (n < 128 → (vsUnpackTable sourceVsTables r).getD n 0 < vsPackThresholds.getD (n + 1) 0) := by
  cases r <;> decide +kernel

theorem vsPackIndex_vsUnpackTable (r : Rounding) {n : Nat} (hn : n ≤ 128) :
    vsPackIndex sourceVsTables ((vsUnpackTable sourceVsTables r).getD n 0) = n := by
  obtain ⟨hle, hlt⟩ := vsUnpackTable_between r n hn
  refine le_antisymm (not_lt.1 fun hnext => ?_) ((le_vsPackIndex_iff hn _).2 hle)
  have hbound := hnext.trans_le (vsPackIndex_le _)
  exact absurd ((le_vsPackIndex_iff hbound _).1 hnext) (not_le.2 (hlt hbound))

/-! ### Decimal bounds of the exponential

The table entries are compared with powers of `exp 0.013`, which stands between two decimals that differ in the tenth
place: `exp (0.026 * q)` is its power `2 * q`, and the half-way point before index `q` is its power `2 * q - 1`. -/

/-- The scale of the two decimals. -/
def expScale : Nat := 10 ^ 10

/-- The decimal below `exp 0.013`, scaled. -/
def expStepLow : Nat := 10130848673

/-- The decimal above `exp 0.013`, scaled. -/
def expStepHigh : Nat := 10130848674

/-- By the first five terms of the exponential series and the bound on the rest. -/
theorem expStep_bounds :
    (expStepLow : ℝ) ≤ expScale * Real.exp (13 / 1000) ∧ expScale * Real.exp (13 / 1000) ≤ (expStepHigh : ℝ) := by
  have hlow := Real.sum_le_exp_of_nonneg (x := 13 / 1000) (by norm_num) 5
  have hhigh := Real.exp_bound' (x := 13 / 1000) (by norm_num) (by norm_num) (n := 5) (by norm_num)
  norm_num [Finset.sum_range_succ, Nat.factorial] at hlow hhigh
  norm_num [expScale, expStepLow, expStepHigh]
  constructor <;> linarith

theorem expStep_pow_bounds (k : Nat) :
    (expStepLow : ℝ) ^ k ≤ expScale ^ k * Real.exp (k * (13 / 1000)) ∧
      expScale ^ k * Real.exp (k * (13 / 1000)) ≤ (expStepHigh : ℝ) ^ k := by
  obtain ⟨hlow, hhigh⟩ := expStep_bounds
  rw [Real.exp_nat_mul, ← mul_pow]
  exact ⟨pow_le_pow_left₀ (Nat.cast_nonneg _) hlow k, pow_le_pow_left₀ (by positivity) hhigh k⟩

theorem expScale_pow_pos (k : Nat) : (0 : ℝ) < expScale ^ k := pow_pos (by norm_num [expScale]) k

theorem mul_expStepLow_pow_le (c k : Nat) :
    (c : ℝ) * expStepLow ^ k ≤ c * Real.exp (k * (13 / 1000)) * expScale ^ k := by
  rw [mul_assoc, mul_comm (Real.exp _)]
  exact mul_le_mul_of_nonneg_left (expStep_pow_bounds k).1 (Nat.cast_nonneg c)

theorem le_mul_expStepHigh_pow (c k : Nat) :
    c * Real.exp (k * (13 / 1000)) * expScale ^ k ≤ (c : ℝ) * expStepHigh ^ k := by
  rw [mul_assoc, mul_comm (Real.exp _)]
  exact mul_le_mul_of_nonneg_left (expStep_pow_bounds k).2 (Nat.cast_nonneg c)

/-! A comparison with a multiple of the exponential follows from one of natural numbers. -/

section Compare

variable {n c k : Nat}

theorem le_mul_exp (h : n * expScale ^ k ≤ c * expStepLow ^ k) : (n : ℝ) ≤ c * Real.exp (k * (13 / 1000)) := by
  have hcast : (n : ℝ) * expScale ^ k ≤ c * expStepLow ^ k := by exact_mod_cast h
  exact le_of_mul_le_mul_right (hcast.trans (mul_expStepLow_pow_le c k)) (expScale_pow_pos k)

theorem lt_mul_exp (h : n * expScale ^ k < c * expStepLow ^ k) : (n : ℝ) < c * Real.exp (k * (13 / 1000)) := by
  have hcast : (n : ℝ) * expScale ^ k < c * expStepLow ^ k := by exact_mod_cast h
  exact lt_of_mul_lt_mul_right (hcast.trans_le (mul_expStepLow_pow_le c k)) (expScale_pow_pos k).le

theorem mul_exp_lt (h : c * expStepHigh ^ k < n * expScale ^ k) : c * Real.exp (k * (13 / 1000)) < (n : ℝ) := by
  have hcast : (c : ℝ) * expStepHigh ^ k < n * expScale ^ k := by exact_mod_cast h
  exact lt_of_mul_lt_mul_right ((le_mul_expStepHigh_pow c k).trans_lt hcast) (expScale_pow_pos k).le

end Compare

/-! ### VS_UNPACK's tables are the exponential formula (R160, R161) -/

/-- Each truncated magnitude `u` has `u + 100 ≤ 100 * exp (0.026 * q) < u + 101`. -/
theorem vsUnpackTruncated_bounds : ∀ q ≤ 128,
    (vsUnpackTruncated.getD q 0 + 100) * expScale ^ (2 * q) ≤ 100 * expStepLow ^ (2 * q) ∧
      100 * expStepHigh ^ (2 * q) < (vsUnpackTruncated.getD q 0 + 101) * expScale ^ (2 * q) := by
  decide +kernel

/-- Each nearest magnitude `u` has `2 * u + 199 ≤ 200 * exp (0.026 * q) < 2 * u + 201`. -/
theorem vsUnpackNearest_bounds : ∀ q ≤ 128,
    (2 * vsUnpackNearest.getD q 0 + 199) * expScale ^ (2 * q) ≤ 200 * expStepLow ^ (2 * q) ∧
      200 * expStepHigh ^ (2 * q) < (2 * vsUnpackNearest.getD q 0 + 201) * expScale ^ (2 * q) := by
  decide +kernel

theorem exp_field_eq (q : Nat) : Real.exp (q * (26 / 1000)) = Real.exp ((2 * q : Nat) * (13 / 1000)) := by
  congr 1
  push_cast
  ring

theorem vsUnpackTruncated_eq_floor {q : Nat} (hq : q ≤ 128) :
    (vsUnpackTruncated.getD q 0 : Int) = ⌊100 * (Real.exp (q * (26 / 1000)) - 1)⌋ := by
  obtain ⟨hlow, hhigh⟩ := vsUnpackTruncated_bounds q hq
  have hlow := le_mul_exp hlow
  have hhigh := mul_exp_lt hhigh
  push_cast at hlow hhigh
  rw [exp_field_eq, eq_comm, Int.floor_eq_iff]
  push_cast
  constructor <;> linarith

theorem vsUnpackNearest_eq_round {q : Nat} (hq : q ≤ 128) :
    (vsUnpackNearest.getD q 0 : Int) = round (100 * (Real.exp (q * (26 / 1000)) - 1)) := by
  obtain ⟨hlow, hhigh⟩ := vsUnpackNearest_bounds q hq
  have hlow := le_mul_exp hlow
  have hhigh := mul_exp_lt hhigh
  push_cast at hlow hhigh
  rw [exp_field_eq, round_eq, eq_comm, Int.floor_eq_iff]
  push_cast
  constructor <;> linarith

/-! ### VS_PACK's thresholds are the logarithm formula (R158, R159) -/

/-- Each threshold `t` after the first has `t + 99 < 100 * exp (0.026 * (q - 0.5)) < t + 100`. -/
theorem vsPackThresholds_bounds : ∀ q < 128,
    (vsPackThresholds.getD (q + 1) 0 + 99) * expScale ^ (2 * q + 1) < 100 * expStepLow ^ (2 * q + 1) ∧
      100 * expStepHigh ^ (2 * q + 1) < (vsPackThresholds.getD (q + 1) 0 + 100) * expScale ^ (2 * q + 1) := by
  decide +kernel

/-- The rounded logarithm reaches `q + 1` where the magnitude reaches the half-way point before it. -/
theorem succ_le_round_log_iff (q m : Nat) :
    ((q + 1 : Nat) : Int) ≤ round (Real.log ((m : ℝ) / 100 + 1) / (26 / 1000)) ↔
      100 * Real.exp ((2 * q + 1 : Nat) * (13 / 1000)) ≤ m + 100 := by
  have hexp : ((2 * q + 1 : Nat) : ℝ) * (13 / 1000) ≤ Real.log ((m : ℝ) / 100 + 1) ↔
      Real.exp ((2 * q + 1 : Nat) * (13 / 1000)) ≤ (m : ℝ) / 100 + 1 := Real.le_log_iff_exp_le (by positivity)
  rw [round_eq, Int.le_floor, ← sub_le_iff_le_add, le_div_iff₀ (by norm_num)]
  have hhalf : (((q + 1 : Nat) : Int) - 1 / 2 : ℝ) * (26 / 1000) = ((2 * q + 1 : Nat) : ℝ) * (13 / 1000) := by
    push_cast
    ring
  rw [hhalf, hexp]
  constructor <;> intro h <;> linarith

theorem zero_le_round_log (m : Nat) : 0 ≤ round (Real.log ((m : ℝ) / 100 + 1) / (26 / 1000)) := by
  have hlog : 0 ≤ Real.log ((m : ℝ) / 100 + 1) := Real.log_nonneg (le_add_of_nonneg_left (by positivity))
  rw [round_eq, Int.le_floor]
  push_cast
  positivity

theorem le_round_log_iff {q : Nat} (hq : q ≤ 128) (m : Nat) :
    (q : Int) ≤ round (Real.log ((m : ℝ) / 100 + 1) / (26 / 1000)) ↔ vsPackThresholds.getD q 0 ≤ m := by
  cases q with
  | zero => exact iff_of_true (zero_le_round_log m) (Nat.zero_le m)
  | succ q =>
    obtain ⟨hlow, hhigh⟩ := vsPackThresholds_bounds q hq
    have hlow := lt_mul_exp hlow
    have hhigh := mul_exp_lt hhigh
    rw [succ_le_round_log_iff]
    push_cast at hlow hhigh ⊢
    constructor
    · intro h
      have hlt : ((vsPackThresholds.getD (q + 1) 0 : Nat) : ℝ) < (m + 1 : Nat) := by
        push_cast
        linarith
      exact Nat.lt_succ_iff.1 (Nat.cast_lt.1 hlt)
    · intro h
      have hle : ((vsPackThresholds.getD (q + 1) 0 : Nat) : ℝ) ≤ m := Nat.cast_le.2 h
      linarith

/-- The index is the rounded logarithm, up to the table's last index. -/
theorem vsPackIndex_eq_round (m : Nat) :
    (vsPackIndex sourceVsTables m : Int) = min 128 (round (Real.log ((m : ℝ) / 100 + 1) / (26 / 1000))) := by
  have hiff {q : Nat} (hq : q ≤ 128) := (le_vsPackIndex_iff hq m).trans (le_round_log_iff hq m).symm
  obtain ⟨n, hn⟩ := Int.eq_ofNat_of_zero_le (zero_le_round_log m)
  rw [hn] at hiff ⊢
  have hle := vsPackIndex_le m
  have hround := (hiff hle).1 le_rfl
  have hindex := (hiff (q := min 128 n) (by omega)).2 (by omega)
  omega

/-- Saturating to the field hides that the table stops at 128. -/
theorem vsPackValue_eq_round (v : Int) :
    vsPackValue sourceVsTables v =
      max (-128) (min 127 (v.sign * round (Real.log ((v.natAbs : ℝ) / 100 + 1) / (26 / 1000)))) := by
  rw [vsPackValue_eq, vsPackIndex_eq_round]
  have hround := zero_le_round_log v.natAbs
  rcases Int.sign_trichotomy v with h | h | h <;> rw [h] <;> omega

end Sys2Proof.Machine

/-! ## The obligations on the vertical-speed conversions -/

namespace Sys2Proof.Proofs

open Machine

/-- Settles O42: each entry of the two tables stands between decimal bounds of the exponential, and fits 16 bits. -/
theorem vsUnpackMatchesTheFormula : Obligations.VsUnpackMatchesTheFormula := by
  refine ⟨fun q => ⟨?_, ?_⟩, fun p q s hp => ⟨_, rfl, ?_⟩, fun q s => ⟨_, rfl, toInt_ofInt_vsUnpackValue .trunc q⟩⟩
  · rw [← vsUnpackTruncated_eq_floor (natAbs_field_le q)]
    rfl
  · rw [← vsUnpackNearest_eq_round (natAbs_field_le q)]
    rfl
  · rw [hp, toInt_ofInt_vsUnpackValue]

/-- Settles O43: each threshold is the first magnitude past the half-way point of the logarithm. -/
theorem vsPackMatchesTheFormula : Obligations.VsPackMatchesTheFormula := by
  have hfits (v : BitVec 16) :
      (BitVec.ofInt 8 (vsPackValue sourceVsTables v.toInt)).toInt = vsPackValue sourceVsTables v.toInt :=
    have hmem := vsPackValue_mem sourceVsTables v.toInt
    BitVec.toInt_ofInt_eq_self (by decide) hmem.1 hmem.2
  refine ⟨fun p v s hp => ⟨_, rfl, ?_⟩, fun v s => ⟨_, rfl, (hfits v).trans (vsPackValue_eq_round _)⟩⟩
  rw [hp, hfits, vsPackValue_eq_round]

/-- Settles O44: an unpacked magnitude has the index it came from; the field's range is the saturated one. -/
theorem vsPackUndoesVsUnpack : Obligations.VsPackUndoesVsUnpack := by
  intro r q
  have hindex := vsPackIndex_vsUnpackTable r (natAbs_field_le q)
  have hlo := q.le_toInt
  have hhi := q.toInt_lt
  rw [vsUnpackValue]
  rcases lt_trichotomy q.toInt 0 with h | h | h
  · rw [Int.sign_eq_neg_one_of_neg h, neg_one_mul, vsPackValue_neg_natCast, hindex]
    omega
  · rw [h, Int.sign_zero, zero_mul]
    exact vsPackValue_natCast 0
  · rw [Int.sign_eq_one_of_pos h, one_mul, vsPackValue_natCast, hindex]
    omega

/-- Settles O45, by R159's two readings of a speed as a magnitude and a sign. -/
theorem vsPackIsOddAndMonotone : Obligations.VsPackIsOddAndMonotone := by
  refine ⟨fun v hv => ?_, fun v w hvw => ?_, fun q m hq => le_vsPackIndex_iff hq m⟩
  · have hle := vsPackIndex_le_of_le (m := v.natAbs) (by rw [abs_le] at hv; omega)
    rw [vsPackValue_eq, vsPackValue_eq, Int.sign_neg, Int.natAbs_neg]
    rcases Int.sign_trichotomy v with h | h | h <;> rw [h] <;> omega
  · obtain ⟨m, rfl | rfl⟩ := v.eq_nat_or_neg <;> obtain ⟨n, rfl | rfl⟩ := w.eq_nat_or_neg
    · have hmono := vsPackIndex_mono (m := m) (n := n) (by omega)
      rw [vsPackValue_natCast, vsPackValue_natCast]
      omega
    · obtain ⟨rfl, rfl⟩ : m = 0 ∧ n = 0 := by omega
      rfl
    · rw [vsPackValue_neg_natCast, vsPackValue_natCast]
      omega
    · have hmono := vsPackIndex_mono (m := n) (n := m) (by omega)
      rw [vsPackValue_neg_natCast, vsPackValue_neg_natCast]
      omega

end Sys2Proof.Proofs

/-! ## ENCODE_FRAME, by its operands and its capacity (45_frame_encoder.md R171, R173) -/

namespace Sys2Proof.Machine

section EncodeFrame

variable {p : Params} {destination tag : Byte} {r : Record} {cap : Nat} {payload : List Byte}

/-- A destination that is no address is refused by name (93_implementation_defined.md U15). -/
theorem execWith_encodeFrame_of_not_mem (hd : destination ∉ p.addrSet) (r : Record) (cap : Nat) (s : State) :
    execWith p (.encodeFrame destination r cap) s = .refused (.destinationNotAddress destination) := by
  rw [execWith, encodeFrameWith, if_neg hd]

/-- A record whose variant has no codec is refused by name (R171). -/
theorem execWith_encodeFrame_of_not_registered (hd : destination ∈ p.addrSet) (hr : r.registered p = false)
    (cap : Nat) (s : State) :
    execWith p (.encodeFrame destination r cap) s = .refused (.recordNotRegistered r) := by
  rcases encodePayload_cases p r with ⟨hr', -⟩ | ⟨-, hpay⟩
  · exact absurd hr' (by simp [hr])
  · rw [execWith, encodeFrameWith, if_pos hd, hpay]

/-- A payload that fits the scratch is delivered in its frame, under the caller's capacity (R171). -/
theorem execWith_encodeFrame_eq_deliver (hd : destination ∈ p.addrSet) (hpay : encodePayload p r = .ok (tag, payload))
    (hfit : payload.length ≤ p.encScratch) (cap : Nat) (s : State) :
    execWith p (.encodeFrame destination r cap) s =
      respond (deliver cap (rawFrame p destination tag payload) s) := by
  have hscratch : encodeInto p.encScratch payload = .ok payload := encodeInto_eq_ok_iff.2 ⟨hfit, rfl⟩
  simp only [execWith, encodeFrameWith, if_pos hd, hpay, encodeFrameBytes, hscratch]

/-- ENCODE_FRAME with room for the frame writes it and reports it (R171). -/
theorem execWith_encodeFrame_fits (hd : destination ∈ p.addrSet) (hpay : encodePayload p r = .ok (tag, payload))
    (hfit : payload.length ≤ p.encScratch) (hcap : payload.length + 4 ≤ cap) (s : State) :
    execWith p (.encodeFrame destination r cap) s = .next
      { s with answer := some (.written (payload.length + 4) (rawFrame p destination tag payload)),
               outBuffer := s.outBuffer.storeAll 0 (rawFrame p destination tag payload) } := by
  rw [execWith_encodeFrame_eq_deliver hd hpay hfit, deliver_fits (by rwa [length_rawFrame]), length_rawFrame,
    respond_next, State.reply_outWrite]

/-- ENCODE_FRAME without room for the frame writes nothing (R171). -/
theorem execWith_encodeFrame_overflows (hd : destination ∈ p.addrSet) (hpay : encodePayload p r = .ok (tag, payload))
    (hfit : payload.length ≤ p.encScratch) (hcap : cap < payload.length + 4) (s : State) :
    execWith p (.encodeFrame destination r cap) s = .next (s.reply (.error .bufferOverflow)) := by
  rw [execWith_encodeFrame_eq_deliver hd hpay hfit, deliver_overflows (by rwa [length_rawFrame]), respond_next]

end EncodeFrame

/-! ### The three codecs that every registry has (42_codec_dispatch.md R123) -/

theorem encodePayload_linkStatistics (p : Params) (f : LinkFields) :
    encodePayload p (.linkStatistics f) = .ok (p.tagLinkstat, f.toList) := rfl

theorem encodePayload_rcChannels (p : Params) (ch : Channels) :
    encodePayload p (.rcChannels ch) = .ok (p.tagRc, rcPack ch) := rfl

theorem encodePayload_baroAltitude (p : Params) (alt : BitVec 16) (vs : BitVec 8) :
    encodePayload p (.baroAltitude alt vs) = .ok (p.tagBaro, baroPack p alt vs) := rfl

end Sys2Proof.Machine

/-! ## The obligations on the frame encoder -/

namespace Sys2Proof.Proofs

open Machine

/-- Settles O47: the codec and the scratch fix the frame, and the capacity only whether it is written. -/
theorem encodedFramesAreRawFrames : Obligations.EncodedFramesAreRawFrames := by
  intro p d r cap n s t bytes hp hexec hanswer
  obtain ⟨tag, payload, hd, hpay, hfit, hcap, rfl, rfl⟩ := encodeFrameWith_written hexec hanswer
  exact ⟨isRawFrame_of_fits hp hd hfit, length_rawFrame .., by omega, by omega, by omega, hcap,
    frameAddress_rawFrame .., fun _ s' hcap' => execWith_encodeFrame_fits hd hpay hfit hcap' s'⟩

/-- Settles O46: each of the three codecs gives its tag and a payload that the scratch holds. -/
theorem encodeFrameOperation : Obligations.EncodeFrameOperation := by
  intro d cap s hd r tag payload hr
  obtain ⟨hpay, hfit⟩ : encodePayload params r = .ok (tag, payload) ∧ payload.length ≤ params.encScratch := by
    rcases hr with ⟨f, rfl, rfl, rfl⟩ | ⟨ch, rfl, rfl, rfl⟩ | ⟨alt, vs, rfl, rfl, rfl⟩
    · exact ⟨encodePayload_linkStatistics params f, Vector.length_toList.trans_le (by decide)⟩
    · exact ⟨encodePayload_rcChannels params ch, (length_rcPack ch).trans_le (by decide)⟩
    · rw [encodePayload_baroAltitude, baroPack_of_three rfl]
      exact ⟨rfl, (length_baroFields alt vs).trans_le (by decide)⟩
  rw [exec_eq_execWith]
  refine ⟨fun hcap => execWith_encodeFrame_overflows hd hpay hfit hcap s,
    fun hcap => ⟨_, rfl, execWith_encodeFrame_fits hd hpay hfit hcap s⟩, ?_⟩
  rcases hr with ⟨f, rfl, -, rfl⟩ | ⟨ch, rfl, -, rfl⟩ | ⟨alt, vs, rfl, -, rfl⟩
  · exact Vector.length_toList
  · exact length_rcPack ch
  · exact length_baroFields alt vs

/-- Settles O48, by the two operands that ENCODE_FRAME checks. -/
theorem encodeFrameRefusesItsNonOperands : Obligations.EncodeFrameRefusesItsNonOperands :=
  fun _ _ r cap s => ⟨fun hd => execWith_encodeFrame_of_not_mem hd r cap s,
    fun hd hr => execWith_encodeFrame_of_not_registered hd hr cap s⟩

end Sys2Proof.Proofs

/-! ## Two parsers that answer the same pushes alike (40_frame_fsm.md R91 to R95) -/

namespace Sys2Proof.Machine

/-- What of `s` a sequence of PUSH_BYTEs can depend on is the same in `t`. In awaiting-sync that is the parser state
alone; later it is also the frame's bytes up to the cursor, and while reading the target. -/
structure PushesAlike (s t : State) : Prop where
  state : t.state = s.state
  target : s.state = .reading → t.target = s.target
  cursor : s.state ≠ .awaitingSync → t.cursor = s.cursor
  cursor_zero : s.state = .awaitingLength → s.cursor = 0
  bytes : s.state ≠ .awaitingSync → ∀ i ≤ s.cursor.toNat, t.bufRead i = s.bufRead i

/-- The same result, and states that go on alike. -/
structure StepsAlike (x y : State × Result) : Prop where
  result : y.2 = x.2
  next : PushesAlike x.1 y.1

section PushesAlike

variable {p : Params} {s t : State}

theorem pushesAlike_of_awaitingSync (hs : s.state = .awaitingSync) (ht : t.state = .awaitingSync) :
    PushesAlike s t where
  state := ht.trans hs.symm
  target h := by simp [hs] at h
  cursor h := absurd hs h
  cursor_zero h := by simp [hs] at h
  bytes h := absurd hs h

/-- An append leaves the bytes up to the new cursor the same in both, also where the cursor wraps. -/
theorem PushesAlike.bufRead_appendByte (h : PushesAlike s t) (hs : s.state ≠ .awaitingSync) (b : Byte) :
    ∀ i ≤ (s.cursor + 1).toNat,
      (appendByte b t.invalidateFrame).bufRead i = (appendByte b s.invalidateFrame).bufRead i := by
  intro i hi
  show (appendByte b t).bufRead i = (appendByte b s).bufRead i
  rw [Machine.bufRead_appendByte, Machine.bufRead_appendByte, h.cursor hs]
  split
  · rfl
  · exact h.bytes hs i (by bv_omega)

theorem PushesAlike.pushByteStep_awaitingSync (hs : s.state = .awaitingSync) (ht : t.state = .awaitingSync)
    (p : Params) (b : Byte) :
    StepsAlike (pushByteStep p b s) (pushByteStep p b t) := by
  by_cases hb : b ∈ p.addrSet
  · rw [pushByteStep_address hs hb, pushByteStep_address ht hb]
    refine ⟨rfl, { state := rfl, target := nofun, cursor := fun _ => rfl, cursor_zero := fun _ => rfl, bytes := ?_ }⟩
    intro _ i hi
    obtain rfl : i = 0 := Nat.le_zero.1 hi
    rw [bufRead_enter, bufRead_enter, bufRead_bufWrite, bufRead_bufWrite]
    rfl
  · rw [pushByteStep_not_address hs hb, pushByteStep_not_address ht hb]
    exact ⟨rfl, pushesAlike_of_awaitingSync hs ht⟩

theorem PushesAlike.pushByteStep_awaitingLength (h : PushesAlike s t) (hs : s.state = .awaitingLength) (p : Params)
    (b : Byte) : StepsAlike (pushByteStep p b s) (pushByteStep p b t) := by
  have ht := h.state.trans hs
  by_cases hb : b.toNat + 2 < p.minTotal ∨ p.maxTotalExcl ≤ b.toNat + 2
  · rw [pushByteStep_bad_length hs hb, pushByteStep_bad_length ht hb]
    exact ⟨rfl, pushesAlike_of_awaitingSync rfl rfl⟩
  · have hns : s.state ≠ .awaitingSync := by simp [hs]
    have happend := h.bufRead_appendByte hns b
    have hcur := h.cursor hns
    rw [appendByte, appendByte, State.invalidateFrame_cursor, State.invalidateFrame_cursor, hcur,
      h.cursor_zero hs] at happend
    rw [pushByteStep_length hs (by omega) (by omega), pushByteStep_length ht (by omega) (by omega), hcur,
      h.cursor_zero hs]
    exact ⟨rfl, { state := rfl, target := fun _ => rfl, cursor := fun _ => rfl, cursor_zero := nofun,
                  bytes := fun _ => happend }⟩

theorem PushesAlike.pushByteStep_reading (h : PushesAlike s t) (hs : s.state = .reading) (p : Params) (b : Byte) :
    StepsAlike (pushByteStep p b s) (pushByteStep p b t) := by
  have hns : s.state ≠ .awaitingSync := by simp [hs]
  have hcur := h.cursor hns
  rw [Machine.pushByteStep_reading hs, Machine.pushByteStep_reading (h.state.trans hs), hcur, h.target hs]
  refine ⟨rfl, { state := rfl, target := fun _ => h.target hs, cursor := fun _ => congrArg (· + 1) hcur,
                 cursor_zero := fun hlength => ?_, bytes := fun _ => h.bufRead_appendByte hns b }⟩
  rw [State.enter_state] at hlength
  split at hlength <;> cases hlength

theorem PushesAlike.pushByteStep_awaitingCrc (h : PushesAlike s t) (hs : s.state = .awaitingCrc) (p : Params)
    (b : Byte) : StepsAlike (pushByteStep p b s) (pushByteStep p b t) := by
  have hns : s.state ≠ .awaitingSync := by simp [hs]
  have hcur : (appendByte b t.invalidateFrame).cursor = (appendByte b s.invalidateFrame).cursor :=
    congrArg (· + 1) (h.cursor hns)
  have hslice : (appendByte b t.invalidateFrame).bufSlice 2 (appendByte b s.invalidateFrame).cursor.toNat =
      (appendByte b s.invalidateFrame).bufSlice 2 (appendByte b s.invalidateFrame).cursor.toNat :=
    bufSlice_congr fun i _ hi => h.bufRead_appendByte hns b i hi.le
  simp only [pushByteStep, hs, h.state.trans hs, pushAwaitingCrc, hcur, hslice]
  split
  · exact ⟨rfl, pushesAlike_of_awaitingSync rfl rfl⟩
  · exact ⟨rfl, pushesAlike_of_awaitingSync rfl rfl⟩

/-- One pushed byte has the same result in both, and leaves them alike. -/
theorem PushesAlike.pushByteStep (h : PushesAlike s t) (p : Params) (b : Byte) :
    StepsAlike (pushByteStep p b s) (pushByteStep p b t) := by
  cases hs : s.state with
  | awaitingSync => exact pushByteStep_awaitingSync hs (h.state.trans hs) p b
  | awaitingLength => exact h.pushByteStep_awaitingLength hs p b
  | reading => exact h.pushByteStep_reading hs p b
  | awaitingCrc => exact h.pushByteStep_awaitingCrc hs p b

theorem PushesAlike.reply (h : PushesAlike s t) (r r' : Result) : PushesAlike (s.reply r) (t.reply r') where
  state := h.state
  target := h.target
  cursor := h.cursor
  cursor_zero := h.cursor_zero
  bytes := h.bytes

theorem PushesAlike.pushBytes (h : PushesAlike s t) (p : Params) (bs : List Byte) :
    (pushBytes p bs t).2 = (pushBytes p bs s).2 := by
  induction bs generalizing s t with
  | nil => rfl
  | cons b bs ih =>
    obtain ⟨hres, hnext⟩ := h.pushByteStep p b
    rw [pushBytes_cons, pushBytes_cons, hres, ih (hnext.reply _ _)]

end PushesAlike

theorem length_pushBytes (p : Params) (bs : List Byte) (s : State) : (pushBytes p bs s).2.length = bs.length := by
  rw [pushBytes, trace_length (by simp [Instr.wellFormed]), List.length_map]

/-! ## The packet sequence, byte by byte (46_packet_sequence.md R180) -/

section Sequence

variable {p : Params} {s t : State} {b : Byte}

/-- What PUSH_BYTE can answer (R96). -/
theorem pushByteStep_result_cases (p : Params) (b : Byte) (s : State) :
    (pushByteStep p b s).2 = .incomplete ∨ (∃ n, (pushByteStep p b s).2 = .complete n) ∨
      ∃ k, (pushByteStep p b s).2 = .error k := by
  rcases pushByteStep_cases p b s with
    ⟨-, -, e⟩ | ⟨-, -, e⟩ | ⟨-, -, -, e⟩ | ⟨-, -, e⟩ | ⟨-, -, e⟩ | ⟨-, -, e⟩ | ⟨-, -, e⟩ | ⟨-, -, e⟩ <;>
    simp [e]

theorem dispatchStep_congr (p : Params) (h : s.parserPart = t.parserPart) :
    (dispatchStep p s).2 = (dispatchStep p t).2 := by
  have hpart (u : State) : (dispatchStep p u.parserPart).2 = (dispatchStep p u).2 := by
    rw [dispatchStep, dispatchStep, apply_ite Prod.snd, apply_ite Prod.snd]
    rfl
  rw [← hpart s, h, hpart]

/-- The elements a pushed byte adds to the packet sequence: none, the packet or decode error of the frame it completes,
or its own error. -/
def pushElements (p : Params) (b : Byte) (s : State) : List Result :=
  match (pushByteStep p b s).2 with
  | .complete _ => [(dispatchStep p (pushByteStep p b s).1).2]
  | .error k => [.error k]
  | _ => []

theorem pushElements_of_incomplete (h : (pushByteStep p b s).2 = .incomplete) : pushElements p b s = [] := by
  rw [pushElements, h]

theorem pushElements_of_complete {n : Nat} (h : (pushByteStep p b s).2 = .complete n) :
    pushElements p b s = [(dispatchStep p (pushByteStep p b s).1).2] := by
  rw [pushElements, h]

theorem pushElements_of_error {k : ErrorKind} (h : (pushByteStep p b s).2 = .error k) :
    pushElements p b s = [.error k] := by
  rw [pushElements, h]

theorem pushElements_congr (p : Params) (b : Byte) (h : s.parserPart = t.parserPart) :
    pushElements p b s = pushElements p b t := by
  obtain ⟨hpart, hres⟩ := pushByteStep_congr p b h
  rw [pushElements, pushElements, hres, dispatchStep_congr p hpart]

/-- A byte of the sequence, with the result that stands in the parser when the next byte is pushed. -/
theorem exists_parseFrom_cons (p : Params) (b : Byte) (bs : List Byte) (s : State) :
    ∃ r, parseFrom p (b :: bs) s = pushElements p b s ++ parseFrom p bs ((pushByteStep p b s).1.reply r) := by
  rw [parseFrom, execWith_pushByte]
  simp only [State.reply_answer]
  rcases pushByteStep_result_cases p b s with h | ⟨n, h⟩ | ⟨k, h⟩
  · rw [pushElements_of_incomplete h, h]
    exact ⟨_, rfl⟩
  · rw [pushElements_of_complete h, h, ← dispatchStep_reply p _ (.complete n)]
    simp only [execWith_dispatch]
    exact ⟨_, rfl⟩
  · rw [pushElements_of_error h, h]
    exact ⟨_, rfl⟩

/-- The sequence depends on the parser's part of the state only. -/
theorem parseFrom_congr (p : Params) (bs : List Byte) (h : s.parserPart = t.parserPart) :
    parseFrom p bs s = parseFrom p bs t := by
  induction bs generalizing s t with
  | nil => rfl
  | cons b bs ih =>
    obtain ⟨r, hs⟩ := exists_parseFrom_cons p b bs s
    obtain ⟨r', ht⟩ := exists_parseFrom_cons p b bs t
    obtain ⟨hpart, -⟩ := pushByteStep_congr p b h
    rw [hs, ht, pushElements_congr p b h]
    exact congrArg _ (ih hpart)

theorem parseFrom_cons (p : Params) (b : Byte) (bs : List Byte) (s : State) :
    parseFrom p (b :: bs) s =
      pushElements p b s ++ parseFrom p bs ((pushByteStep p b s).1.reply (pushByteStep p b s).2) := by
  obtain ⟨r, h⟩ := exists_parseFrom_cons p b bs s
  rw [h]
  exact congrArg _ (parseFrom_congr p bs rfl)

theorem parseFrom_singleton (p : Params) (b : Byte) (s : State) : parseFrom p [b] s = pushElements p b s := by
  rw [parseFrom_cons, parseFrom, List.append_nil]

/-- The sequence of a stream that is cut: the second part goes on where the pushes of the first have led. -/
theorem parseFrom_append (p : Params) (xs ys : List Byte) (s : State) :
    parseFrom p (xs ++ ys) s = parseFrom p xs s ++ parseFrom p ys (pushBytes p xs s).1 := by
  induction xs generalizing s with
  | nil => rfl
  | cons x xs ih => rw [List.cons_append, parseFrom_cons, parseFrom_cons, ih, pushBytes_cons, List.append_assoc]

/-- One element for each push whose result is not `Incomplete` (R181). -/
theorem length_parseFrom (p : Params) (bs : List Byte) (s : State) :
    (parseFrom p bs s).length = ((pushBytes p bs s).2.filter (fun r => r ≠ .incomplete)).length := by
  induction bs generalizing s with
  | nil => rfl
  | cons b bs ih =>
    rw [parseFrom_cons, pushBytes_cons, List.length_append, ih]
    rcases pushByteStep_result_cases p b s with h | ⟨n, h⟩ | ⟨k, h⟩
    · rw [pushElements_of_incomplete h, h]
      simp
    · rw [pushElements_of_complete h, h]
      simp [Nat.add_comm]
    · rw [pushElements_of_error h, h]
      simp [Nat.add_comm]

theorem parseFrom_of_incomplete {bs : List Byte} {n : Nat} (h : (pushBytes p bs s).2 = List.replicate n .incomplete) :
    parseFrom p bs s = [] := by
  rw [← List.length_eq_zero_iff, length_parseFrom, h]
  simp

/-- PARSE_BUFFER starts in awaiting-sync, and no rule needs to know more of its fresh parser. -/
theorem exists_parseBuffer_eq_parseFrom (p : Params) :
    ∃ s : State, s.state = .awaitingSync ∧ ∀ bs, parseBuffer p bs = parseFrom p bs s :=
  ⟨(resetStep State.reset).1.reply .done, rfl, fun _ => rfl⟩

/-! ## Garbage, a frame and a corrupted frame in the sequence (R183, R184) -/

/-- Bytes outside ADDR_SET give an `InvalidSync` each and leave the parser in awaiting-sync (R91). -/
theorem parseFrom_garbage {g : List Byte} (hg : ∀ b ∈ g, b ∉ p.addrSet) (hs : s.state = .awaitingSync) :
    parseFrom p g s = g.map (fun b => .error (.invalidSync b)) ∧ (pushBytes p g s).1.state = .awaitingSync := by
  induction g generalizing s with
  | nil => exact ⟨rfl, hs⟩
  | cons b g ih =>
    obtain ⟨hb, hg⟩ := List.forall_mem_cons.1 hg
    have hpush := pushByteStep_not_address hs hb
    have herror : pushElements p b s = [.error (.invalidSync b)] := pushElements_of_error (by rw [hpush])
    rw [parseFrom_cons, pushBytes_cons, herror, hpush]
    obtain ⟨helements, hend⟩ := ih hg (s := s.invalidateFrame.reply (.error (.invalidSync b))) hs
    exact ⟨congrArg _ helements, hend⟩

variable {f : List Byte}

/-- A Raw Frame before its CRC byte, and with it. -/
theorem dropLast_of_isRawFrame (hp : p.SizesOk) (hf : isRawFrame p f) :
    f.dropLast = frameAddress f :: frameLengthByte f :: frameBody f ∧ f.dropLast ++ [frameCrc f] = f := by
  obtain ⟨hparts, hbody⟩ := frame_eq_parts (hp.1.trans hf.1)
  have hdrop := (congrArg List.dropLast hparts).trans List.dropLast_concat
  rw [hdrop, hbody]
  exact ⟨rfl, hparts.symm⟩

/-- A Raw Frame but for its CRC byte adds no element, and that byte is then awaited. -/
theorem parseFrom_dropLast (hp : p.SizesOk) (hf : isRawFrame p f) (hs : s.state = .awaitingSync) :
    parseFrom p f.dropLast s = [] ∧ (pushBytes p f.dropLast s).1.state = .awaitingCrc ∧
      Received (pushBytes p f.dropLast s).1 (frameAddress f :: frameLengthByte f :: frameBody f) ∧
      (frameBody f).length + 2 ≤ 62 := by
  obtain ⟨hdrop, hcrc⟩ := dropLast_of_isRawFrame hp hf
  obtain ⟨hmin, hmax, ha, hl, -⟩ := hf
  have hcap := maxTotalExcl_le hp
  have hlen : (frameBody f).length + 2 + 1 = f.length := by simpa [hdrop] using congrArg List.length hcrc
  obtain ⟨hres, hst, hrec⟩ := pushBytes_beforeCrc hp hs ha (hl ▸ hmin) (hl ▸ hmax) (body := frameBody f) (by omega)
  rw [hdrop]
  exact ⟨parseFrom_of_incomplete hres, hst, hrec, by omega⟩

/-- A Raw Frame from awaiting-sync adds its dispatch, and the parser is in awaiting-sync again (R98, R183). -/
theorem parseFrom_rawFrame (hp : p.SizesOk) (hf : isRawFrame p f) (hs : s.state = .awaitingSync) :
    parseFrom p f s = [dispatchFrame p f] ∧ (pushBytes p f s).1.state = .awaitingSync := by
  refine ⟨?_, (pushBytes_rawFrame hp hf hs).2.1⟩
  obtain ⟨hdrop, hcrc⟩ := dropLast_of_isRawFrame hp hf
  obtain ⟨hnone, hst, hrec, hlen⟩ := parseFrom_dropLast hp hf hs
  obtain ⟨hres, -, hvalid, hrec'⟩ := pushByteStep_crc_of_received (p := p) hst hrec (by omega)
  obtain ⟨hmin, -, -, -, hdigest⟩ := hf
  rw [← hdigest] at hres hvalid hrec'
  rw [← hdrop, hcrc] at hrec'
  calc parseFrom p f s = parseFrom p (f.dropLast ++ [frameCrc f]) s := by rw [hcrc]
    _ = pushElements p (frameCrc f) (pushBytes p f.dropLast s).1 := by
      rw [parseFrom_append, hnone, parseFrom_singleton, List.nil_append]
    _ = [dispatchFrame p f] := by
      rw [pushElements_of_complete hres, dispatchStep_of_received hrec' hvalid (hp.1.trans hmin)]

/-- A Raw Frame with another byte in the place of its CRC byte adds one error (R184). -/
theorem parseFrom_corrupted {x : Byte} (hp : p.SizesOk) (hf : isRawFrame p f) (hx : x ≠ frameCrc f)
    (hs : s.state = .awaitingSync) :
    parseFrom p (f.dropLast ++ [x]) s = [.error (.invalidCrc (frameCrc f) x)] := by
  obtain ⟨hnone, hst, hrec, hlen⟩ := parseFrom_dropLast hp hf hs
  have hcur : (pushBytes p f.dropLast s).1.cursor.toNat + 1 = (frameBody f).length + 2 := hrec.1
  obtain ⟨-, -, -, -, hdigest⟩ := hf
  have hpush := pushByteStep_bad_crc (p := p) (b := x) hst (by omega) (by rwa [hrec.bufSlice_two, ← hdigest, ne_comm])
  rw [hrec.bufSlice_two, ← hdigest] at hpush
  rw [parseFrom_append, hnone, parseFrom_singleton, List.nil_append]
  exact pushElements_of_error (by rw [hpush])

end Sequence

end Sys2Proof.Machine

/-! ## The obligations on the packet sequence -/

namespace Sys2Proof.Proofs

open Machine

/-- Settles O50: each part of the stream begins and ends in awaiting-sync. -/
theorem twoFramesAmongGarbageAreBothDecoded : Obligations.TwoFramesAmongGarbageAreBothDecoded := by
  intro p f1 f2 g1 g2 g3 r1 r2 hp hf1 hf2 hr1 hr2 hg
  simp only [List.forall_mem_append] at hg
  obtain ⟨⟨hg1, hg2⟩, hg3⟩ := hg
  obtain ⟨s, hs, hparse⟩ := exists_parseBuffer_eq_parseFrom p
  obtain ⟨e1, hs⟩ := parseFrom_garbage hg1 hs
  obtain ⟨e2, hs⟩ := parseFrom_rawFrame hp hf1 hs
  obtain ⟨e3, hs⟩ := parseFrom_garbage hg2 hs
  obtain ⟨e4, hs⟩ := parseFrom_rawFrame hp hf2 hs
  obtain ⟨e5, -⟩ := parseFrom_garbage hg3 hs
  simp only [hparse, List.append_assoc, parseFrom_append, e1, e2, e3, e4, e5, hr1, hr2]

/-- Settles O51, by the rule of R95 for a byte that is not the digest. -/
theorem corruptedCrcGivesOneError : Obligations.CorruptedCrcGivesOneError := by
  intro p f x hp hf hx
  obtain ⟨s, hs, hparse⟩ := exists_parseBuffer_eq_parseFrom p
  rw [hparse, parseFrom_corrupted hp hf hx hs]

/-- Settles O52: a push adds at most one element, and none exactly when it is `Incomplete`. The free values of the fresh
parser do not show in the results that are counted. -/
theorem packetSequenceIsLazyAndFinite : Obligations.PacketSequenceIsLazyAndFinite := by
  intro p xs ys _
  obtain ⟨s, hs, hparse⟩ := exists_parseBuffer_eq_parseFrom p
  have hresults : (pushBytes p xs State.reset).2 = (pushBytes p xs s).2 :=
    (pushesAlike_of_awaitingSync hs rfl).pushBytes p xs
  simp only [hparse]
  refine ⟨⟨_, parseFrom_append p xs ys s⟩, ?_, ?_⟩
  · calc (parseFrom p xs s).length ≤ (pushBytes p xs s).2.length :=
          (length_parseFrom p xs s).trans_le (List.length_filter_le _ _)
      _ = xs.length := length_pushBytes p xs s
  · rw [hresults, length_parseFrom]

end Sys2Proof.Proofs

/-! ## Errors and result codes (60_exceptions.md R190 to R199) -/

namespace Sys2Proof.Machine

/-- What a PUSH_BYTE that answers an error found and left: one row of R96's table for each framing error (R190 to
R192). -/
theorem pushByteStep_error {p : Params} {b : Byte} {s : State} {k : ErrorKind}
    (h : (pushByteStep p b s).2 = .error k) :
    (s.state = .awaitingSync ∧ b ∉ p.addrSet ∧ k = .invalidSync b ∧ (pushByteStep p b s).1 = s.invalidateFrame) ∨
    (s.state = .awaitingLength ∧ (b.toNat + 2 < p.minTotal ∨ p.maxTotalExcl ≤ b.toNat + 2) ∧
      k = .invalidPacketLength b ∧ (pushByteStep p b s).1 = s.invalidateFrame.enter .awaitingSync) ∨
    (s.state = .awaitingCrc ∧ (∃ c, c ≠ b ∧ k = .invalidCrc c b) ∧
      (pushByteStep p b s).1 = (appendByte b s.invalidateFrame).enter .awaitingSync) := by
  rcases pushByteStep_cases p b s with
    ⟨-, -, e⟩ | ⟨hs, hb, e⟩ | ⟨-, -, -, e⟩ | ⟨hs, hb, e⟩ | ⟨-, -, e⟩ | ⟨-, -, e⟩ | ⟨-, -, e⟩ | ⟨hs, hcrc, e⟩ <;>
    rw [e] at h ⊢ <;> cases h
  · exact .inl ⟨hs, hb, rfl, rfl⟩
  · exact .inr (.inl ⟨hs, hb, rfl, rfl⟩)
  · exact .inr (.inr ⟨hs, ⟨_, hcrc, rfl⟩, rfl⟩)

/-- The length rule of R93 at the default build's MIN_TOTAL and MAX_TOTAL_EXCL. -/
theorem badLength_params_iff (b : Byte) :
    (b.toNat + 2 < params.minTotal ∨ params.maxTotalExcl ≤ b.toNat + 2) ↔
      ¬(4 ≤ b.toNat + 2 ∧ b.toNat + 2 < 64) := by
  show b.toNat + 2 < 4 ∨ 64 ≤ b.toNat + 2 ↔ _
  omega

theorem exec_pushByte_bad_length {b : Byte} {s : State} (hs : s.state = .awaitingLength)
    (hb : ¬(4 ≤ b.toNat + 2 ∧ b.toNat + 2 < 64)) :
    exec (.pushByte b) s = .next
      { s with frameValid := false, state := .awaitingSync, answer := some (.error (.invalidPacketLength b)) } := by
  rw [exec_pushByte, pushByteStep_bad_length hs ((badLength_params_iff b).2 hb)]
  rfl

/-- The kinds of result that R199 gives a code of their own or a side output; every other result is code 0 and has
none. -/
theorem result_cases (r : Result) :
    (∃ k, r = .error k) ∨ (∃ n, r = .complete n) ∨ (∃ x, r = .refused x) ∨
    ((∀ k, r ≠ .error k) ∧ (∀ n, r ≠ .complete n) ∧ (∀ x, r ≠ .refused x) ∧
      resultCode r = 0 ∧ resultLen r = none ∧ resultByte r = none ∧ resultCrcs r = none) := by
  cases r with
  | error k => exact .inl ⟨k, rfl⟩
  | complete n => exact .inr (.inl ⟨n, rfl⟩)
  | refused x => exact .inr (.inr (.inl ⟨x, rfl⟩))
  | done | incomplete | crc | packet | written | altitudeDm | altitudePacked | speed | vspeedPacked =>
    exact .inr (.inr (.inr ⟨nofun, nofun, nofun, rfl, rfl, rfl, rfl⟩))

end Sys2Proof.Machine

/-! ## The obligations on errors and results -/

namespace Sys2Proof.Proofs

open Machine

/-- Settles O12: in each of the three states one row answers an error. -/
theorem framingErrorsResynchronise : Obligations.FramingErrorsResynchronise := by
  intro s t b k h hk
  rw [eq_of_exec_pushByte h] at hk ⊢
  rcases pushByteStep_error (Option.some.inj hk) with ⟨hs, hb, hkind, e⟩ | ⟨hs, hb, hkind, e⟩ | ⟨hs, hkind, e⟩ <;>
    rw [e]
  · exact ⟨hs, rfl, .inl ⟨hs, hkind, hb, rfl, rfl⟩⟩
  · rw [badLength_params_iff] at hb
    exact ⟨rfl, rfl, .inr (.inl ⟨hs, hkind, by omega, rfl, rfl, rfl⟩)⟩
  · exact ⟨rfl, rfl, .inr (.inr ⟨hs, rfl, bufRead_appendByte_cursor b s.invalidateFrame, hkind⟩)⟩

/-- Settles O14: of the rows that answer an error only that of AwaitingLength answers this one, and there the length
rule decides. -/
theorem lengthErrorsAreExactlyTheLengthsOutsideTheRange :
    Obligations.LengthErrorsAreExactlyTheLengthsOutsideTheRange := by
  refine ⟨fun s t b x h => ⟨fun hx => ?_, ?_⟩, fun s b => exec_pushByte_bad_length, fun b => ?_, by decide +kernel,
    fun _ => rfl⟩
  · rw [eq_of_exec_pushByte h] at hx
    rcases pushByteStep_error (Option.some.inj hx) with
      ⟨-, -, hkind, -⟩ | ⟨hs, hb, hkind, -⟩ | ⟨-, ⟨c, -, hkind⟩, -⟩ <;>
      cases hkind
    exact ⟨rfl, hs, (badLength_params_iff b).1 hb⟩
  · rintro ⟨rfl, hs, hb⟩
    rw [exec_pushByte_bad_length hs hb] at h
    cases h
    rfl
  · bv_omega

/-- Settles O21: the builds' completion, with `exec` as the default build. -/
theorem presentableOperationsComplete : Obligations.PresentableOperationsComplete := by
  refine ⟨fun p i s h => execWith_completes h s, fun i s h => ?_⟩
  rw [exec_eq_execWith]
  exact execWith_completes h s

/-- Settles O55, one kind of result at a time. -/
theorem resultCodesFollowR199 : Obligations.ResultCodesFollowR199 := by
  intro r
  obtain ⟨k, rfl⟩ | ⟨n, rfl⟩ | ⟨x, rfl⟩ | ⟨hk, hn, hx, hcode, hlen, hbyte, hcrcs⟩ := result_cases r
  · cases k <;> simp [resultCode, errorCode, resultLen, resultByte, resultCrcs]
  · simp [resultCode, resultLen, resultByte, resultCrcs, eq_comm]
  · cases x <;> simp [resultCode, resultLen, resultByte, resultCrcs]
  · simp [hk, hn, hx, hcode, hlen, hbyte, hcrcs]

end Sys2Proof.Proofs

/-! ## Two instances that no operation tells apart (70_reset_and_hazards.md R221) -/

namespace Sys2Proof.Safety

open Machine

/-- In every row of R31's table, `frame_valid` means that a frame is held. -/
theorem Inv.heldFrame {p : Params} {s : State} (h : Inv p s) (hv : s.frameValid = true) : HeldFrame p s := by
  obtain ⟨-, hrow⟩ := h
  cases hs : s.state with
  | awaitingSync => exact (stateRow_awaitingSync hs).1 hrow hv
  | awaitingLength =>
    obtain ⟨-, -, hfv, -⟩ := (stateRow_awaitingLength hs).1 hrow
    simp [hfv] at hv
  | reading =>
    obtain ⟨-, -, -, -, -, hfv, -⟩ := (stateRow_reading hs).1 hrow
    simp [hfv] at hv
  | awaitingCrc =>
    obtain ⟨-, -, -, hfv, -⟩ := (stateRow_awaitingCrc hs).1 hrow
    simp [hfv] at hv

/-- A held frame has a type byte before its CRC byte. -/
theorem HeldFrame.three_le_cursor {p : Params} {s : State} (hp : p.SizesOk) (h : HeldFrame p s) :
    3 ≤ s.cursor.toNat := by
  obtain ⟨hfour, -, -⟩ := hp
  obtain ⟨hcur, -, ⟨hmin, -⟩, -, -⟩ := h
  omega

end Sys2Proof.Safety

namespace Sys2Proof.Machine

open Safety

section Indistinguishable

variable {p : Params} {s t : State} {b : Byte}

/-- The PUSH_BYTE that answers `Complete` is the CRC byte's, and it appends that byte (R95). -/
theorem pushByteStep_of_complete {n : Nat} (h : (pushByteStep p b s).2 = .complete n) :
    s.state = .awaitingCrc ∧
      (pushByteStep p b s).1 = ((appendByte b s.invalidateFrame).enter .awaitingSync).validateFrame := by
  rcases pushByteStep_cases p b s with
    ⟨-, -, e⟩ | ⟨-, -, e⟩ | ⟨-, -, -, e⟩ | ⟨-, -, e⟩ | ⟨-, -, e⟩ | ⟨-, -, e⟩ | ⟨hs, -, e⟩ | ⟨-, -, e⟩ <;>
    rw [e] at h ⊢ <;> cases h
  exact ⟨hs, rfl⟩

/-- After a PUSH_BYTE a frame is held exactly when it answered `Complete` (R26, R92). -/
theorem pushByteStep_frameValid_iff (p : Params) (b : Byte) (s : State) :
    (pushByteStep p b s).1.frameValid = true ↔ ∃ n, (pushByteStep p b s).2 = .complete n := by
  rcases pushByteStep_cases p b s with
    ⟨-, -, e⟩ | ⟨-, -, e⟩ | ⟨-, -, -, e⟩ | ⟨-, -, e⟩ | ⟨-, -, e⟩ | ⟨-, -, e⟩ | ⟨-, -, e⟩ | ⟨-, -, e⟩ <;>
    simp [e]

/-- What of `s` the results of operations can depend on is the same in `t`: what pushes read, and the held frame, if
there is one, which DISPATCH reads. The invariant is that of the parser's part, because nothing is known of the output
buffer. -/
structure Indistinguishable (p : Params) (s t : State) : Prop where
  inv : Inv p s.parserPart
  pushes : PushesAlike s t
  frameValid : t.frameValid = s.frameValid
  heldCursor : s.frameValid = true → t.cursor = s.cursor
  heldBytes : s.frameValid = true → ∀ i ≤ s.cursor.toNat, t.bufRead i = s.bufRead i

/-- RESET makes any two states alike: `target` and `buf`, which it leaves unspecified, belong to no frame (R90). -/
theorem indistinguishable_resetStep (p : Params) (s t : State) :
    Indistinguishable p (resetStep s).1 (resetStep t).1 where
  inv := inv_of_sync_unheld rfl rfl (storageOk_empty rfl List.Pairwise.nil rfl)
  pushes := pushesAlike_of_awaitingSync rfl rfl
  frameValid := rfl
  heldCursor := nofun
  heldBytes := nofun

theorem Indistinguishable.reply (h : Indistinguishable p s t) (r r' : Result) :
    Indistinguishable p (s.reply r) (t.reply r') where
  inv := h.inv
  pushes := h.pushes.reply r r'
  frameValid := h.frameValid
  heldCursor := h.heldCursor
  heldBytes := h.heldBytes

theorem Indistinguishable.outWrite (h : Indistinguishable p s t) (bytes bytes' : List Byte) :
    Indistinguishable p (s.outWrite bytes) (t.outWrite bytes') where
  inv := h.inv
  pushes := ⟨h.pushes.state, h.pushes.target, h.pushes.cursor, h.pushes.cursor_zero, h.pushes.bytes⟩
  frameValid := h.frameValid
  heldCursor := h.heldCursor
  heldBytes := h.heldBytes

/-- A pushed byte keeps two states alike: a frame that it completes was read alike up to its CRC byte. -/
theorem Indistinguishable.push (hp : p.SizesOk) (h : Indistinguishable p s t) (b : Byte) :
    Indistinguishable p (pushByteStep p b s).1 (pushByteStep p b t).1 := by
  obtain ⟨hres, hnext⟩ := h.pushes.pushByteStep p b
  have hinv : Inv p (pushByteStep p b s).1.parserPart := by
    have hpart := inv_pushByteStep hp b h.inv
    rwa [pushByteStep_parserPart] at hpart
  have hheld (hv : (pushByteStep p b s).1.frameValid = true) :
      (pushByteStep p b t).1.cursor = (pushByteStep p b s).1.cursor ∧
        ∀ i ≤ (pushByteStep p b s).1.cursor.toNat,
          (pushByteStep p b t).1.bufRead i = (pushByteStep p b s).1.bufRead i := by
    obtain ⟨n, hn⟩ := (pushByteStep_frameValid_iff p b s).1 hv
    obtain ⟨hs, es⟩ := pushByteStep_of_complete hn
    obtain ⟨-, et⟩ := pushByteStep_of_complete (hres.trans hn)
    have hns : s.state ≠ .awaitingSync := by simp [hs]
    rw [es, et]
    exact ⟨congrArg (· + 1) (h.pushes.cursor hns), h.pushes.bufRead_appendByte hns b⟩
  refine ⟨hinv, hnext, ?_, fun hv => (hheld hv).1, fun hv => (hheld hv).2⟩
  rw [Bool.eq_iff_iff, pushByteStep_frameValid_iff, pushByteStep_frameValid_iff, hres]

/-- DISPATCH reads the held frame only, and refuses when there is none (R125). -/
theorem Indistinguishable.dispatchStep_result (hp : p.SizesOk) (h : Indistinguishable p s t) :
    (dispatchStep p t).2 = (dispatchStep p s).2 := by
  cases hv : s.frameValid with
  | false => simp [dispatchStep, h.frameValid, hv]
  | true =>
    have hthree : 3 ≤ s.cursor.toNat := HeldFrame.three_le_cursor hp (h.inv.heldFrame hv)
    have htag : t.bufRead 2 = s.bufRead 2 := h.heldBytes hv 2 (by omega)
    have hpayload : t.bufSlice 3 s.cursor.toNat = s.bufSlice 3 s.cursor.toNat :=
      bufSlice_congr fun i _ hi => h.heldBytes hv i hi.le
    simp [dispatchStep, h.frameValid, hv, h.heldCursor hv, htag, hpayload]

/-- The same result and states that no operation tells apart, or the same refusal. -/
inductive AnswersAlike (p : Params) :
    Host.Outcome State Fault Refusal → Host.Outcome State Fault Refusal → Prop where
  | next {s t : State} (h : Indistinguishable p s t) (hanswer : t.answer = s.answer) :
    AnswersAlike p (.next s) (.next t)
  | refused (r : Refusal) : AnswersAlike p (.refused r) (.refused r)

theorem answersAlike_respond {x y : State × Result} (h : Indistinguishable p x.1 y.1) (hres : y.2 = x.2) :
    AnswersAlike p (respond x) (respond y) :=
  .next (h.reply x.2 y.2) (congrArg some hres)

theorem answersAlike_deliver (h : Indistinguishable p s t) (cap : Nat) (bytes : List Byte) :
    AnswersAlike p (respond (deliver cap bytes s)) (respond (deliver cap bytes t)) := by
  by_cases hcap : bytes.length ≤ cap
  · rw [deliver_fits hcap, deliver_fits hcap]
    exact answersAlike_respond (h.outWrite bytes bytes) rfl
  · rw [deliver_overflows (by omega), deliver_overflows (by omega)]
    exact answersAlike_respond h rfl

/-- ENCODE_FRAME refuses, fails or delivers by its operands alone (R171). -/
theorem answersAlike_encodeFrame (h : Indistinguishable p s t) (destination : Byte) (record : Record) (cap : Nat) :
    AnswersAlike p (encodeFrameWith p destination record cap s) (encodeFrameWith p destination record cap t) := by
  unfold encodeFrameWith
  split
  · split
    next r _ => exact .refused r
    next tag payload _ =>
      unfold encodeFrameBytes
      split
      · exact answersAlike_respond h rfl
      · exact answersAlike_deliver h _ _
  · exact .refused _

/-- No operation tells the two states apart, and none makes them differ. -/
theorem answersAlike_execWith (hp : p.SizesOk) (h : Indistinguishable p s t) (i : Instr) :
    AnswersAlike p (execWith p i s) (execWith p i t) := by
  cases i with
  | reset => exact answersAlike_respond (indistinguishable_resetStep p s t) rfl
  | pushByte b => exact answersAlike_respond (h.push hp b) (h.pushes.pushByteStep p b).result
  | dispatch =>
    rw [execWith_dispatch, execWith_dispatch]
    exact .next (h.reply _ _) (congrArg some (h.dispatchStep_result hp))
  | rcEncode | baroEncode | linkstatEncode => exact answersAlike_deliver h _ _
  | encodeFrame destination record cap => exact answersAlike_encodeFrame h destination record cap
  | crc8Digest | rcDecode | baroDecode | linkstatDecode | altUnpack | altPack | vsUnpack | vsPack | reserved0xF
  | frameLinkstat | frameRcChannels | frameBaroAlt | frameNotImplemented => exact answersAlike_respond h rfl

/-- A sequence of operations has the same results from both, up to the end or to the operation that is refused. -/
theorem Indistinguishable.trace_results (hp : p.SizesOk) (h : Indistinguishable p s t) (is : List Instr) :
    (trace p is s).2 = (trace p is t).2 := by
  induction is generalizing s t with
  | nil => rfl
  | cons i is ih =>
    have halike := answersAlike_execWith hp h i
    generalize hs : execWith p i s = x, ht : execWith p i t = y at halike
    cases halike with
    | next hnext hanswer => rw [trace_cons_next hs, trace_cons_next ht, hanswer, ih hnext]
    | refused r => simp only [trace, hs, ht]

end Indistinguishable

end Sys2Proof.Machine

/-! ## The obligation on RESET -/

namespace Sys2Proof.Proofs

open Machine

/-- Settles O5: RESET makes the two states indistinguishable, and every later operation keeps them so. -/
theorem resetIsObservablyAFreshInstance : Obligations.ResetIsObservablyAFreshInstance := by
  intro p is s t hp
  have hreset (u : State) : execWith p .reset u = .next ((resetStep u).1.reply (resetStep u).2) := rfl
  have halike := (indistinguishable_resetStep p s t).reply (resetStep s).2 (resetStep t).2
  rw [trace_cons_next (hreset s), trace_cons_next (hreset t)]
  exact congrArg (Result.done :: ·) (halike.trace_results hp is)

end Sys2Proof.Proofs
